-- ==== Sys2Proof/Word.lean ====
section
/-!
DEFINITION. The bit-vector widths of the DES cipher engine (00_scope.md R8, 30_encoding.md R80 to
R86). A `BitVec n` is the spec's `BitVector n`: DES position `i` (1 the leftmost, most significant)
is hardware bit `n - i` (R10, R11), so `BitVec.toNat` is the spec's `int(v)`.
-/

namespace Sys2Proof

/-- One byte of a key or block (R51). -/
abbrev Byte := BitVec 8

/-- The 64-bit key or block as it stands on `cmd_data` and `rsp_data` (R8, R51). -/
abbrev Block := BitVec 64

/-- One half of the working block, `L` or `R` (R21). -/
abbrev Half := BitVec 32

/-- One half of the 56-bit working key, `C` or `D` (R22). -/
abbrev KeyHalf := BitVec 28

/-- One round subkey (R24). -/
abbrev Subkey := BitVec 48

/-- The RoundKeySet: sixteen subkeys, `K_j` at index `j - 1` (R24, R15). -/
abbrev RoundKeySet := Vector Subkey 16

/-- A response status code (R86). -/
abbrev StatusCode := BitVec 3

/-- The command word `CMD[69:0]` (R81). -/
abbrev CmdWord := BitVec 70

/-- The response word `RSP[66:0]` (R85). -/
abbrev RspWord := BitVec 67

end Sys2Proof
end

