-- ==== Sys2Proof/Config.lean ====
section
/-!
DEFINITION. What the spec leaves open: the contents of the registers it calls unspecified after a
reset (10_state.md R38, 93_implementation_defined.md U1), as free values with no body, and the
three open parameters of 00_scope.md R9, which no rule and no definition of this model uses.

Every free value of a register takes the reset's number `n` (the model's own counter
`State.resetCount`), so that two resets may leave different contents (R241, R258).
-/

namespace Sys2Proof

/-- Contents of `K[i]` after reset number `n`: any value, not assumed zero and not assumed erased
(R38, R241, R258). -/
opaque Config.resetK : Nat → Nat → Subkey

/-- Contents of `C` after reset number `n`: any value (R38). -/
opaque Config.resetC : Nat → KeyHalf

/-- Contents of `D` after reset number `n`: any value (R38). -/
opaque Config.resetD : Nat → KeyHalf

/-- Contents of `L` after reset number `n`: any value (R38). -/
opaque Config.resetL : Nat → Half

/-- Contents of `R` after reset number `n`: any value (R38). -/
opaque Config.resetR : Nat → Half

/-- Contents of `DEC` after reset number `n`: any value (R38). -/
opaque Config.resetDEC : Nat → Bool

/-- Contents of `RSP_STATUS` after reset number `n`: any of the eight codes (R38). -/
opaque Config.resetRspStatus : Nat → StatusCode

/-- Contents of `RSP_DATA` after reset number `n`: any value (R38). -/
opaque Config.resetRspData : Nat → Block

/-- The free part of `T_KEYGEN` (R9: open, any value at least 1). -/
opaque Config.keygenClocksLessOne : Nat

/-- `T_KEYGEN`, clocks from Accept of a well-formed LDKEY to its response (R9, R260). No rule uses
it: the model has no clock. -/
def Config.T_KEYGEN : Nat := Config.keygenClocksLessOne + 1

/-- The free part of `T_BLOCK` (R9: open, any value at least 1). -/
opaque Config.blockClocksLessOne : Nat

/-- `T_BLOCK`, clocks from Accept of a well-formed ENC or DEC to its response (R9, R260). No rule
uses it. -/
def Config.T_BLOCK : Nat := Config.blockClocksLessOne + 1

/-- How `rst` is sampled and its active level (R9, R241). -/
inductive ResetStyle where
  /-- sampled on a clock edge -/
  | synchronous (activeHigh : Bool)
  /-- acts between clock edges -/
  | asynchronous (activeHigh : Bool)
deriving DecidableEq, Repr, Inhabited

/-- `RESET_STYLE` (R9). No rule uses it: only the state after a reset is specified (R241). -/
opaque Config.RESET_STYLE : ResetStyle

end Sys2Proof
end

