-- ==== Sys2Proof/Syntax.lean ====
section
/-!
DEFINITION. The command set, one constructor per row of opcode_table.json (30_encoding.md R82).
-/

namespace Sys2Proof

/-- A command taken from the command port. `len` is the byte count the host declares (R83, read as
a number, not as bits: the engine only compares it with 8); the 64-bit operand is `cmd_data`
(R84). RSVD keeps the fields of its word too, though the engine ignores both (R83, R84), so that
decoding drops no bit. -/
inductive Instr where
  /-- RSVD, `op` = 00: the reserved opcode (R89, 60_exceptions.md R212). -/
  | rsvd (len : Nat) (data : Block)
  /-- LDKEY, `op` = 01: generate and store the sixteen subkeys of `key` (41_key_schedule.md R150). -/
  | ldkey (len : Nat) (key : Block)
  /-- ENC, `op` = 10: encrypt one block (43_cipher_engine.md R190). -/
  | enc (len : Nat) (block : Block)
  /-- DEC, `op` = 11: decrypt one block (43_cipher_engine.md R191). -/
  | dec (len : Nat) (block : Block)
deriving DecidableEq, Repr

end Sys2Proof
end

