-- ==== Sys2Proof/WellFormed.lean ====
section
/-!
DEFINITION. When a command has an encoding: its declared length fits the 4-bit `len` field
(30_encoding.md R81, R83). A length other than 8 is well formed as a command; it fails its size
check when it is accepted (R89).
-/

namespace Sys2Proof

/-- `len` is "unsigned 0..15" (R81). -/
def lenFits (len : Nat) : Bool := len ≤ 15

/-- The command can be written as a 70-bit word. -/
def Instr.wellFormed : Instr → Bool
  | .rsvd len _ => lenFits len
  | .ldkey len _ => lenFits len
  | .enc len _ => lenFits len
  | .dec len _ => lenFits len

end Sys2Proof
end

