-- ==== Sys2Proof/Decode.lean ====
section
/-!
DEFINITION. The command word `CMD[69:0] = op ‖ len ‖ data` (30_encoding.md R80, R81), its decoder
(R88, total on every 70-bit word), the two readers that can reject by name (a number or a byte
string that is no 70-bit word), and after them the encoder, written from the same table R82.
-/

namespace Sys2Proof

/-! ### The fields of a command word (R81) -/

/-- `op`, `CMD[69:68]`. -/
def cmdOp (w : CmdWord) : BitVec 2 := w.extractLsb' 68 2

/-- `len`, `CMD[67:64]`, unsigned. -/
def cmdLen (w : CmdWord) : Nat := (w.extractLsb' 64 4).toNat

/-- `data`, `CMD[63:0]`. -/
def cmdData (w : CmdWord) : Block := w.extractLsb' 0 64

/-! ### Decoding -/

/-- R88: decoding is total and looks at `op` alone. -/
def decode (w : CmdWord) : Instr :=
  match (cmdOp w).toNat with
  | 0 => .rsvd (cmdLen w) (cmdData w)
  | 1 => .ldkey (cmdLen w) (cmdData w)
  | 2 => .enc (cmdLen w) (cmdData w)
  | _ => .dec (cmdLen w) (cmdData w)

/-- Why a number or a byte string is no command word. -/
inductive DecodeError where
  /-- a bit above bit 69 is set; R91: "the top two bits of the first digit are always 0" -/
  | bitsAboveWord
  /-- fewer than the 9 bytes (18 hex digits, R91) of one command word -/
  | truncated
deriving DecidableEq, Repr

/-- Decode a number; rejects by name one that is wider than the only word format (R80). -/
def decodeNat (w : Nat) : Except DecodeError Instr :=
  if w < 2 ^ 70 then .ok (decode (BitVec.ofNat 70 w)) else .error .bitsAboveWord

/-- The big-endian number of a byte string, first byte most significant (R91, R51). -/
def bytesToNat (bs : List Byte) : Nat := bs.foldl (fun acc b => acc * 256 + b.toNat) 0

/-- Decode one command from a byte string in the written form of R91 (18 hex digits, most
significant first: the first byte is `(op << 4) | len`), and give the bytes after it. Total on
any bytes. -/
def decodeBytes (bs : List Byte) : Except DecodeError (Instr × List Byte) :=
  if bs.length < 9 then .error .truncated
  else
    match decodeNat (bytesToNat (bs.take 9)) with
    | .ok i => .ok (i, bs.drop 9)
    | .error e => .error e

/-- The host's question: the instruction read from the word `w` of a row of opcode_table.json. A
row is one 70-bit word, so its bits are numbered as `CMD` numbers them (R81); the bits above
`nbits` are 0. -/
def decodeTableWord (nbits w : Nat) : Option Instr :=
  match decodeNat (w % 2 ^ nbits) with
  | .ok i => some i
  | .error _ => none

/-! ### Encoding -/

/-- `op` of each command (R82). -/
def Instr.opcode : Instr → BitVec 2
  | .rsvd _ _ => 0b00#2
  | .ldkey _ _ => 0b01#2
  | .enc _ _ => 0b10#2
  | .dec _ _ => 0b11#2

/-- The declared byte count of a command. -/
def Instr.len : Instr → Nat
  | .rsvd len _ => len
  | .ldkey len _ => len
  | .enc len _ => len
  | .dec len _ => len

/-- The 64-bit operand of a command. -/
def Instr.data : Instr → Block
  | .rsvd _ data => data
  | .ldkey _ key => key
  | .enc _ block => block
  | .dec _ block => block

/-- The command word of a well-formed command: `op ‖ len ‖ data` (R81). -/
def encode (i : Instr) : CmdWord := i.opcode ++ BitVec.ofNat 4 i.len ++ i.data

/-- The nine bytes of a command word in the written form of R91, most significant first. -/
def encodeBytes (i : Instr) : List Byte :=
  (List.range 9).map fun k => ((encode i).setWidth 72).extractLsb' (8 * (8 - k)) 8

end Sys2Proof
end

