-- ==== Sys2Proof/Machine/Tables.lean ====
section
/-!
DEFINITION. The constant tables, "data, not behavior", never mutated (20_memory.md R60, 10_state.md
R36): the six permutation tables (40_bit_conversion_and_permutation.md R118 to R123), the shift
schedule (41_key_schedule.md R143) and the eight S-boxes (42_round_function.md R166). Their contents
are the spec's own; it marks them "from general knowledge, not in source" (90_conflicts.md,
93_implementation_defined.md G1, G2).
-/

namespace Sys2Proof.Machine

/-- A permutation table of shape `n → m` (R117): `m` entries, each a 1-indexed position into an
`n`-bit input (R63, R115). The two proofs are the precondition of `permute`, met once here, so
the `SizeMismatch` of R115 cannot arise (R116 (4), R215). -/
structure PermTable (n m : Nat) where
  /-- `T[1], ..., T[m]` -/
  entries : List Nat
  /-- the table has one entry per output position -/
  length_eq : entries.length = m
  /-- "Every entry of each table lies in 1..a" (R117) -/
  inRange : ∀ t ∈ entries, 1 ≤ t ∧ t ≤ n

/-- IP, the initial permutation, 64 → 64 (R118). -/
def Table.IP : PermTable 64 64 :=
  ⟨[58, 50, 42, 34, 26, 18, 10, 2, 60, 52, 44, 36, 28, 20, 12, 4,
     62, 54, 46, 38, 30, 22, 14, 6, 64, 56, 48, 40, 32, 24, 16, 8,
     57, 49, 41, 33, 25, 17, 9, 1, 59, 51, 43, 35, 27, 19, 11, 3,
     61, 53, 45, 37, 29, 21, 13, 5, 63, 55, 47, 39, 31, 23, 15, 7],
    by decide, by decide⟩

/-- FP, the final permutation, the inverse of IP, 64 → 64 (R119). -/
def Table.FP : PermTable 64 64 :=
  ⟨[40, 8, 48, 16, 56, 24, 64, 32, 39, 7, 47, 15, 55, 23, 63, 31,
     38, 6, 46, 14, 54, 22, 62, 30, 37, 5, 45, 13, 53, 21, 61, 29,
     36, 4, 44, 12, 52, 20, 60, 28, 35, 3, 43, 11, 51, 19, 59, 27,
     34, 2, 42, 10, 50, 18, 58, 26, 33, 1, 41, 9, 49, 17, 57, 25],
    by decide, by decide⟩

/-- E, the expansion table, 32 → 48 (R120). -/
def Table.E : PermTable 32 48 :=
  ⟨[32, 1, 2, 3, 4, 5, 4, 5, 6, 7, 8, 9, 8, 9, 10, 11,
     12, 13, 12, 13, 14, 15, 16, 17, 16, 17, 18, 19, 20, 21, 20, 21,
     22, 23, 24, 25, 24, 25, 26, 27, 28, 29, 28, 29, 30, 31, 32, 1],
    by decide, by decide⟩

/-- P, the round-output permutation, 32 → 32 (R121). -/
def Table.P : PermTable 32 32 :=
  ⟨[16, 7, 20, 21, 29, 12, 28, 17, 1, 15, 23, 26, 5, 18, 31, 10,
     2, 8, 24, 14, 32, 27, 3, 9, 19, 13, 30, 6, 22, 11, 4, 25],
    by decide, by decide⟩

/-- PC1, permuted choice 1, 64 → 56 (R122). -/
def Table.PC1 : PermTable 64 56 :=
  ⟨[57, 49, 41, 33, 25, 17, 9, 1, 58, 50, 42, 34, 26, 18, 10, 2,
     59, 51, 43, 35, 27, 19, 11, 3, 60, 52, 44, 36, 63, 55, 47, 39,
     31, 23, 15, 7, 62, 54, 46, 38, 30, 22, 14, 6, 61, 53, 45, 37,
     29, 21, 13, 5, 28, 20, 12, 4],
    by decide, by decide⟩

/-- PC2, permuted choice 2, 56 → 48 (R123). -/
def Table.PC2 : PermTable 56 48 :=
  ⟨[14, 17, 11, 24, 1, 5, 3, 28, 15, 6, 21, 10, 23, 19, 12, 4,
     26, 8, 16, 7, 27, 20, 13, 2, 41, 52, 31, 37, 47, 55, 30, 40,
     51, 45, 33, 48, 44, 49, 39, 56, 34, 53, 46, 42, 50, 36, 29, 32],
    by decide, by decide⟩

/-- The shift schedule: round `j` of 1..16 rotates by entry `j`, the first entry being `SHIFT[1]`
(R143, R15, 90_conflicts.md C7). -/
def Table.SHIFT : List Nat := [1, 1, 2, 2, 2, 2, 2, 2, 1, 2, 2, 2, 2, 2, 2, 1]

/-- S-box 0, customarily S1: four rows of sixteen columns (R166). -/
def Table.SBOX0 : List (List Nat) :=
  [[14, 4, 13, 1, 2, 15, 11, 8, 3, 10, 6, 12, 5, 9, 0, 7],
   [0, 15, 7, 4, 14, 2, 13, 1, 10, 6, 12, 11, 9, 5, 3, 8],
   [4, 1, 14, 8, 13, 6, 2, 11, 15, 12, 9, 7, 3, 10, 5, 0],
   [15, 12, 8, 2, 4, 9, 1, 7, 5, 11, 3, 14, 10, 0, 6, 13]]

/-- S-box 1, customarily S2: four rows of sixteen columns (R166). -/
def Table.SBOX1 : List (List Nat) :=
  [[15, 1, 8, 14, 6, 11, 3, 4, 9, 7, 2, 13, 12, 0, 5, 10],
   [3, 13, 4, 7, 15, 2, 8, 14, 12, 0, 1, 10, 6, 9, 11, 5],
   [0, 14, 7, 11, 10, 4, 13, 1, 5, 8, 12, 6, 9, 3, 2, 15],
   [13, 8, 10, 1, 3, 15, 4, 2, 11, 6, 7, 12, 0, 5, 14, 9]]

/-- S-box 2, customarily S3: four rows of sixteen columns (R166). -/
def Table.SBOX2 : List (List Nat) :=
  [[10, 0, 9, 14, 6, 3, 15, 5, 1, 13, 12, 7, 11, 4, 2, 8],
   [13, 7, 0, 9, 3, 4, 6, 10, 2, 8, 5, 14, 12, 11, 15, 1],
   [13, 6, 4, 9, 8, 15, 3, 0, 11, 1, 2, 12, 5, 10, 14, 7],
   [1, 10, 13, 0, 6, 9, 8, 7, 4, 15, 14, 3, 11, 5, 2, 12]]

/-- S-box 3, customarily S4: four rows of sixteen columns (R166). -/
def Table.SBOX3 : List (List Nat) :=
  [[7, 13, 14, 3, 0, 6, 9, 10, 1, 2, 8, 5, 11, 12, 4, 15],
   [13, 8, 11, 5, 6, 15, 0, 3, 4, 7, 2, 12, 1, 10, 14, 9],
   [10, 6, 9, 0, 12, 11, 7, 13, 15, 1, 3, 14, 5, 2, 8, 4],
   [3, 15, 0, 6, 10, 1, 13, 8, 9, 4, 5, 11, 12, 7, 2, 14]]

/-- S-box 4, customarily S5: four rows of sixteen columns (R166). -/
def Table.SBOX4 : List (List Nat) :=
  [[2, 12, 4, 1, 7, 10, 11, 6, 8, 5, 3, 15, 13, 0, 14, 9],
   [14, 11, 2, 12, 4, 7, 13, 1, 5, 0, 15, 10, 3, 9, 8, 6],
   [4, 2, 1, 11, 10, 13, 7, 8, 15, 9, 12, 5, 6, 3, 0, 14],
   [11, 8, 12, 7, 1, 14, 2, 13, 6, 15, 0, 9, 10, 4, 5, 3]]

/-- S-box 5, customarily S6: four rows of sixteen columns (R166). -/
def Table.SBOX5 : List (List Nat) :=
  [[12, 1, 10, 15, 9, 2, 6, 8, 0, 13, 3, 4, 14, 7, 5, 11],
   [10, 15, 4, 2, 7, 12, 9, 5, 6, 1, 13, 14, 0, 11, 3, 8],
   [9, 14, 15, 5, 2, 8, 12, 3, 7, 0, 4, 10, 1, 13, 11, 6],
   [4, 3, 2, 12, 9, 5, 15, 10, 11, 14, 1, 7, 6, 0, 8, 13]]

/-- S-box 6, customarily S7: four rows of sixteen columns (R166). -/
def Table.SBOX6 : List (List Nat) :=
  [[4, 11, 2, 14, 15, 0, 8, 13, 3, 12, 9, 7, 5, 10, 6, 1],
   [13, 0, 11, 7, 4, 9, 1, 10, 14, 3, 5, 12, 2, 15, 8, 6],
   [1, 4, 11, 13, 12, 3, 7, 14, 10, 15, 6, 8, 0, 5, 9, 2],
   [6, 11, 13, 8, 1, 4, 10, 7, 9, 5, 0, 15, 14, 2, 3, 12]]

/-- S-box 7, customarily S8: four rows of sixteen columns (R166). -/
def Table.SBOX7 : List (List Nat) :=
  [[13, 2, 8, 4, 6, 15, 11, 1, 10, 9, 3, 14, 5, 0, 12, 7],
   [1, 15, 13, 8, 10, 3, 7, 4, 12, 5, 6, 11, 0, 14, 9, 2],
   [7, 11, 4, 1, 9, 12, 14, 2, 0, 6, 10, 13, 15, 3, 5, 8],
   [2, 1, 14, 7, 4, 10, 8, 13, 15, 12, 9, 0, 3, 5, 6, 11]]

/-- `SBOX[i]` for i = 0..7 (R166). -/
def Table.SBOX : List (List (List Nat)) :=
  [Table.SBOX0, Table.SBOX1, Table.SBOX2, Table.SBOX3,
   Table.SBOX4, Table.SBOX5, Table.SBOX6, Table.SBOX7]

end Sys2Proof.Machine
end

