-- ==== Sys2Proof/Machine/State.lean ====
section
/-!
DEFINITION. The state of the engine (10_state.md R20), the ports (R31), the events of a step
(00_scope.md R14, 60_exceptions.md R218) and the state after reset (R38).

`Engine` is the complete state of the engine: exactly the eleven registers of R20 under the spec's
names. `State` is an engine in its surroundings, which the one-argument `step` of Host.Core needs:
the values the outside world drives on the input ports, one entry a step (`inputs`), the responses
the host has taken (`delivered`), and the number of resets so far (`resetCount`), which numbers the
free values of Config. Those three are the model's and no state of the engine
(notes/assumptions 2, 3, 4, 21).
-/

namespace Sys2Proof.Machine

/-- `PHASE`, the sequencer phase (R28). No rule depends on a numeric encoding. -/
inductive Phase where
  /-- no transaction in flight -/
  | idle
  /-- LDKEY in flight, `RND` of 16 subkeys written -/
  | keygen
  /-- ENC or DEC in flight, `RND` of 16 rounds done -/
  | rounds
  /-- a response is waiting to be taken -/
  | resp
deriving DecidableEq, Repr, Inhabited

/-- The values on the input ports in one step (R31; `clk` is the step itself). -/
structure PortIn where
  /-- reset is asserted -/
  rst : Bool
  /-- the host presents a command -/
  cmdValid : Bool
  cmdOp : BitVec 2
  cmdLen : BitVec 4
  cmdData : Block
  /-- the host takes a response -/
  rspReady : Bool
deriving DecidableEq, Repr

/-- Input ports on which the outside world drives nothing: no reset, no command, no taking. -/
def PortIn.quiet : PortIn := ⟨false, false, 0, 0, 0, false⟩

/-- A response (R85). -/
structure Response where
  status : StatusCode
  data : Block
deriving DecidableEq, Repr

/-- The values on the output ports (R31, R33). `response` is `none` while `rsp_valid` = 0: the bits
on `rsp_status` and `rsp_data` are then unspecified and no host may use them (R255), so the model
exposes none (93_implementation_defined.md U6). -/
structure PortOut where
  cmdReady : Bool
  rspValid : Bool
  keyValid : Bool
  response : Option Response
deriving DecidableEq, Repr

/-- The faults of the engine: why Accept rejects a command (60_exceptions.md R210 to R214). They do
not stop the machine; they are answered by a response. -/
inductive Rejection where
  /-- LDKEY with `len` ≠ 8 (R210) -/
  | invalidKeySize
  /-- ENC or DEC with `len` ≠ 8 (R211) -/
  | invalidBlockSize
  /-- the reserved opcode (R212) -/
  | invalidOperationFlag
  /-- ENC or DEC with `len` = 8 while `KV` = 0 (R213) -/
  | noKey
deriving DecidableEq, Repr

/-- What happens in one step (R14, R218). -/
inductive Event where
  /-- `rst` is asserted (R241) -/
  | reset
  /-- a command is taken from the command port (R32) -/
  | accept (i : Instr)
  /-- one key-schedule round (R151) -/
  | keygenStep
  /-- one Feistel round (R193) -/
  | roundStep
  /-- the host takes the response (R219) -/
  | deliver
  /-- the engine waits for the host and has no step of its own (R28) -/
  | wait
deriving DecidableEq, Repr

/-- The complete state of the engine: "the following registers and nothing else" (R20). -/
structure Engine where
  /-- the RoundKeySet, `K[j-1]` = `K_j` (R24) -/
  K : RoundKeySet
  /-- key valid: the RoundKeySet is complete (R26) -/
  KV : Bool
  /-- key-schedule left half (R22) -/
  C : KeyHalf
  /-- key-schedule right half (R22) -/
  D : KeyHalf
  /-- left half of the working block (R21) -/
  L : Half
  /-- right half of the working block (R21) -/
  R : Half
  /-- direction of the block transaction in flight: false encrypt, true decrypt (R20) -/
  DEC : Bool
  /-- KeygenSteps or RoundSteps done in the transaction in flight, 0..16 (R29) -/
  RND : BitVec 5
  /-- sequencer phase (R28) -/
  PHASE : Phase
  /-- status code of the pending response (R20) -/
  RSP_STATUS : StatusCode
  /-- data of the pending response (R20) -/
  RSP_DATA : Block
deriving DecidableEq, Repr

/-- An engine (R20) and, beside it, what the model keeps of its surroundings. -/
structure State extends Engine where
  /-- model's own: the input ports' values in this step and the steps after it; past its end the
  ports are quiet -/
  inputs : List PortIn
  /-- model's own: the responses delivered so far, oldest first -/
  delivered : List Response
  /-- model's own: how many reset events this run has had, the number of the free values -/
  resetCount : Nat
deriving DecidableEq, Repr

/-- Why the machine stops with a fault. None is a fault of the spec, whose faults are responses
(R216); no run from reset reaches it. -/
inductive Fault where
  /-- Raised by KeygenStep and RoundStep in a state whose `RND` is above 15, for which the spec
  gives no step: "then `RND` ≤ 15" (R151, R193), and no run reaches one (R37). Safe. -/
  | roundCounterOutOfRange
deriving DecidableEq, Repr

/-- Why the machine has no meaning for an instruction. -/
inductive Refusal where
  /-- Raised by an arm of `exec` whose instruction has no meaning yet; no arm of this model does.
  Safe. -/
  | notModelled (mnemonic : String)
deriving DecidableEq, Repr

/-- The engine right after reset (R38): `PHASE` = IDLE, `RND` = 0, `KV` = 0; every other register
holds an unspecified value, here the free value of reset number 0 (notes/assumptions 4). The
outside world has driven nothing yet and taken nothing. -/
def State.reset : State where
  K := Vector.ofFn fun i : Fin 16 => Config.resetK 0 i
  KV := false
  C := Config.resetC 0
  D := Config.resetD 0
  L := Config.resetL 0
  R := Config.resetR 0
  DEC := Config.resetDEC 0
  RND := 0
  PHASE := .idle
  RSP_STATUS := Config.resetRspStatus 0
  RSP_DATA := Config.resetRspData 0
  inputs := []
  delivered := []
  resetCount := 0

end Sys2Proof.Machine
end

