-- ==== Sys2Proof/Machine/Operands.lean ====
section
/-!
DEFINITION. The primitives every command is built from: DES positions, the permutation primitive,
rotation (40_bit_conversion_and_permutation.md R115 to R127), byte and bit conversion (20_memory.md
R51 to R54), and the same primitives on vectors of arbitrary length, where `SizeMismatch` can
occur (60_exceptions.md R215). Exclusive or (R126) is `^^^` on equal widths and concatenation
(00_scope.md R12) is `++`.
-/

namespace Sys2Proof.Machine

/-! ### Positions -/

/-- `v⟨i⟩`, the bit at DES position `i` of 1..n: hardware bit `n - i` (00_scope.md R10, R11). -/
def bitAt {n : Nat} (v : BitVec n) (i : Nat) : Bool := v.getLsbD (n - i)

/-- The `len` positions of `v` from position `first` on: `v⟨first..first+len-1⟩` (R10). -/
def positions {n : Nat} (v : BitVec n) (first len : Nat) : BitVec len :=
  v.extractLsb' (n + 1 - first - len) len

/-- The number of a list of bits, position 1 first: `int(v)` (R10). -/
def bitsToNat (bs : List Bool) : Nat := bs.foldl (fun acc b => 2 * acc + b.toNat) 0

/-- The bits of `v`, position 1 first. -/
def toBits {n : Nat} (v : BitVec n) : List Bool := (List.range n).map fun i => bitAt v (i + 1)

/-! ### The permutation primitive and rotation -/

/-- `permute(T, v)`: output position `i` is input position `T[i]` (R115). Total: the table carries
its precondition. -/
def permute {n m : Nat} (T : PermTable n m) (v : BitVec n) : BitVec m :=
  BitVec.ofNat m (bitsToNat (T.entries.map (bitAt v)))

/-- `rotl_n(v, s)`, circular left rotation, 0 ≤ s ≤ n (R125). -/
def rotl {n : Nat} (v : BitVec n) (s : Nat) : BitVec n := v <<< s ||| v >>> (n - s)

/-! ### Bytes at the ports -/

/-- Byte `k` of 0..7 of a 64-bit port, `[63-8k : 56-8k]` (R51). -/
def portByte (v : Block) (k : Nat) : Byte := v.extractLsb' (56 - 8 * k) 8

/-- The eight bytes of a 64-bit port, byte 0 first (R51). -/
def portBytes (v : Block) : List Byte := (List.range 8).map (portByte v)

/-! ### The primitives on arbitrary lengths -/

/-- The precondition failure of the generic primitives. It is no fault of the engine, where every
length is fixed (R215). -/
inductive SizeMismatch where
  /-- the input's length does not meet the primitive's precondition -/
  | sizeMismatch
deriving DecidableEq, Repr

/-- `bytesToBits`: eight bits a byte, most significant first (R52). -/
def bytesToBits (bytes : List Byte) : List Bool := bytes.flatMap toBits

/-- The bytes of a bit list whose length is a multiple of 8; `fuel` is that number of bytes. -/
def packBytes : Nat → List Bool → List Byte
  | 0, _ => []
  | fuel + 1, bs => BitVec.ofNat 8 (bitsToNat (bs.take 8)) :: packBytes fuel (bs.drop 8)

/-- `bitsToBytes`, the inverse: it "requires `bits.length % 8 == 0`; fails with SizeMismatch
otherwise" (R53). -/
def bitsToBytes (bits : List Bool) : Except SizeMismatch (List Byte) :=
  if bits.length % 8 = 0 then .ok (packBytes (bits.length / 8) bits) else .error .sizeMismatch

/-- `max(table)` of R115. -/
def maxEntry (table : List Nat) : Nat := table.foldl max 0

/-- `applyPermutation(table, input)`: "`output[i] = input[table[i] - 1]`"; it "fails with
SizeMismatch if `input.length` is smaller than `max(table)`" (R115). An entry 0 is no valid
position either and fails the same way (notes/assumptions 15). -/
def applyPermutation (table : List Nat) (input : List Bool) : Except SizeMismatch (List Bool) :=
  if input.length < maxEntry table ∨ 0 ∈ table then .error .sizeMismatch
  else .ok (table.map fun t => input.getD (t - 1) false)

end Sys2Proof.Machine
end

