-- ==== Sys2Proof/Machine/Flags.lean ====
section
/-!
DEFINITION. The engine's one status flag `KV` (10_state.md R26: no condition codes, no carry, no
overflow) and the status codes of a response (30_encoding.md R86).
-/

namespace Sys2Proof.Machine

/-- Accept of a well-formed LDKEY writes `KV <- 0` (R26). -/
def State.clearKV (s : State) : State := { s with KV := false }

/-- The 16th KeygenStep writes `KV <- 1` (R26). -/
def State.setKV (s : State) : State := { s with KV := true }

/-- Status OK: every command that is not rejected (R86). -/
def statusOK : StatusCode := 0b000#3

/-- The status code of a rejection (R86). Codes 5 to 7 are reserved and never produced (R89). -/
def Rejection.code : Rejection → StatusCode
  | .invalidKeySize => 0b001#3
  | .invalidBlockSize => 0b010#3
  | .invalidOperationFlag => 0b011#3
  | .noKey => 0b100#3

/-- The suggested numeric encoding of `PHASE` (R28), on which nothing depends. -/
def Phase.code : Phase → BitVec 2
  | .idle => 0
  | .keygen => 1
  | .rounds => 2
  | .resp => 3

/-- The response word `RSP[66:0] = status ‖ data` (R85). -/
def Response.word (r : Response) : RspWord := r.status ++ r.data

end Sys2Proof.Machine
end

