-- ==== Sys2Proof/Machine/Ops.lean ====
section
/-!
DEFINITION. The shared operations over the state: the ports of one step (10_state.md R31 to R33), the
subkey store (20_memory.md R61), the handshake of Accept (R32), entering a fault and returning from
one (60_exceptions.md R216, R219), finishing a command, and the reset event
(70_reset_and_hazards.md R241).
-/

namespace Sys2Proof.Machine

/-! ### Ports -/

/-- The command word on the command port, `cmd_op ‖ cmd_len ‖ cmd_data` (30_encoding.md R81). -/
def PortIn.word (p : PortIn) : CmdWord := p.cmdOp ++ p.cmdLen ++ p.cmdData

/-- `p` with the command word `w` presented on the command port and reset not asserted. -/
def PortIn.present (p : PortIn) (w : CmdWord) : PortIn :=
  { p with
    rst := false, cmdValid := true
    cmdOp := w.extractLsb' 68 2, cmdLen := w.extractLsb' 64 4, cmdData := w.extractLsb' 0 64 }

/-- The input ports' values in this step. -/
def State.now (s : State) : PortIn := s.inputs.headD .quiet

/-- The state with this step's input values used up. -/
def State.tick (s : State) : State := { s with inputs := s.inputs.tail }

/-- The outputs as functions of the state (R33). -/
def State.outputs (s : State) : PortOut where
  cmdReady := s.PHASE = .idle
  rspValid := s.PHASE = .resp
  keyValid := s.KV
  response := if s.PHASE = .resp then some ⟨s.RSP_STATUS, s.RSP_DATA⟩ else none

/-! ### The subkey store (R24, R61) -/

/-- `K[i]`. -/
def State.readSubkey (s : State) (i : Fin 16) : Subkey := s.K.get i

/-- `K[i] <- v`. -/
def State.writeSubkey (s : State) (i : Fin 16) (v : Subkey) : State := { s with K := s.K.set i v }

/-! ### Accept, faults, Deliver -/

/-- `Accept` of a command with the effect `effect`: it happens only when `cmd_ready` = 1, that is in
phase IDLE; a command presented otherwise "is not taken and has no effect on any register" (R32,
R33). -/
def accept (effect : State → State) (s : State) : Host.Outcome State Fault Refusal :=
  if s.PHASE = .idle then .next (effect s) else .next s

/-- Put the response (`status`, `data`) in the response registers and show it: the common end of a
rejected Accept, the 16th KeygenStep and the 16th RoundStep (R151, R194, R216). -/
def State.respond (s : State) (status : StatusCode) (data : Block) : State :=
  { s with RSP_STATUS := status, RSP_DATA := data, PHASE := .resp }

/-- Fault entry, `raise X` (R216): the status code, zero data, phase RESP, and no other register.
There is no handler, no saved state and no mode. -/
def raise (x : Rejection) (s : State) : State := s.respond x.code 0

/-- Deliver, which is also the return from a fault (R219): the host gets the response, the engine
is idle again, and no other register changes. -/
def deliver (s : State) : State :=
  { s with delivered := s.delivered ++ [⟨s.RSP_STATUS, s.RSP_DATA⟩], PHASE := .idle }

/-! ### Reset -/

/-- The reset event (R241): whatever the current state, `PHASE` = IDLE, `RND` = 0, `KV` = 0, and
every other register is unspecified afterwards (the free values of this reset). A transaction
in flight and a waiting response are dropped: nothing is delivered. -/
def resetEvent (s : State) : State :=
  let n := s.resetCount + 1
  { K := Vector.ofFn fun i : Fin 16 => Config.resetK n i
    KV := false
    C := Config.resetC n
    D := Config.resetD n
    L := Config.resetL n
    R := Config.resetR n
    DEC := Config.resetDEC n
    RND := 0
    PHASE := .idle
    RSP_STATUS := Config.resetRspStatus n
    RSP_DATA := Config.resetRspData n
    inputs := s.inputs
    delivered := s.delivered
    resetCount := n }

/-! ### Which event a step is -/

/-- The event of this step. Reset wins over everything it coincides with (R218, R241); otherwise the
phase enables exactly one event (R28), and Accept and Deliver wait for the host (R32). -/
def nextEvent (s : State) : Event :=
  if s.now.rst then .reset
  else
    match s.PHASE with
    | .idle => if s.now.cmdValid then .accept (decode s.now.word) else .wait
    | .keygen => .keygenStep
    | .rounds => .roundStep
    | .resp => if s.now.rspReady then .deliver else .wait

end Sys2Proof.Machine
end

