-- ==== Sys2Proof/Machine/RoundFunction.lean ====
section
/-!
DEFINITION. The round function F and the S-box array (42_round_function.md R160 to R170). Pure and
combinational: F has no register and its intermediate vectors are not state (R172).
-/

namespace Sys2Proof.Machine

/-- Step 1, expansion: `EX = permute(E, R)` (R161). -/
def expand (r : Half) : Subkey := permute Table.E r

/-- Step 2, key mixing: `X = EX xor K` (R162). -/
def mixKey (r : Half) (k : Subkey) : Subkey := expand r ^^^ k

/-- Group `i` of 0..7: `G_i = X⟨6i+1..6i+6⟩` (R163). -/
def group (x : Subkey) (i : Nat) : BitVec 6 := positions x (6 * i + 1) 6

/-- The row of a group, `2·b1 + b6` (R165). -/
def sboxRow (g : BitVec 6) : Nat := 2 * (bitAt g 1).toNat + (bitAt g 6).toNat

/-- The column of a group, `8·b2 + 4·b3 + 2·b4 + b5` (R165). -/
def sboxColumn (g : BitVec 6) : Nat :=
  8 * (bitAt g 2).toNat + 4 * (bitAt g 3).toNat + 2 * (bitAt g 4).toNat + (bitAt g 5).toNat

/-- `SBOX[i][row][col]`. Every address the engine forms is in range (R62, R170). -/
def sboxEntry (i row col : Nat) : Nat := ((Table.SBOX.getD i []).getD row []).getD col 0

/-- One S-box: the 4-bit `N_i` of group `i` (R165). -/
def sbox (i : Nat) (g : BitVec 6) : BitVec 4 :=
  BitVec.ofNat 4 (sboxEntry i (sboxRow g) (sboxColumn g))

/-- `SFLAT[i][v]`: the same box addressed by the raw 6-bit value (R168). -/
def sboxFlat (i v : Nat) : Nat := sboxEntry i (2 * (v / 32) + v % 2) (v / 2 % 16)

/-- Step 3, substitution: `S = N_0 ‖ N_1 ‖ ... ‖ N_7` (R163). -/
def substitute (x : Subkey) : Half :=
  sbox 0 (group x 0) ++ sbox 1 (group x 1) ++ sbox 2 (group x 2) ++ sbox 3 (group x 3) ++
  sbox 4 (group x 4) ++ sbox 5 (group x 5) ++ sbox 6 (group x 6) ++ sbox 7 (group x 7)

/-- `F(R, K) = permute(P, S)` (R167, R169). -/
def roundF (r : Half) (k : Subkey) : Half := permute Table.P (substitute (mixKey r k))

end Sys2Proof.Machine
end

