-- ==== Sys2Proof/Machine/KeySchedule.lean ====
section
/-!
DEFINITION. The key schedule generator as a pure function (41_key_schedule.md R140 to R149) and the
command LDKEY with its KeygenStep (R150, R151).
-/

namespace Sys2Proof.Machine

/-- `SHIFT[j]`, j = 1..16 (R143, 00_scope.md R15). -/
def shiftAmount (j : Nat) : Nat := Table.SHIFT.getD (j - 1) 0

/-- `C_j` (R142, R144): `C_0` is positions 1..28 of `permute(PC1, key)`, and each round rotates the
half of the round before it. -/
def keyC (key : Block) : Nat → KeyHalf
  | 0 => positions (permute Table.PC1 key) 1 28
  | j + 1 => rotl (keyC key j) (shiftAmount (j + 1))

/-- `D_j` (R142, R144): `D_0` is positions 29..56. -/
def keyD (key : Block) : Nat → KeyHalf
  | 0 => positions (permute Table.PC1 key) 29 28
  | j + 1 => rotl (keyD key j) (shiftAmount (j + 1))

/-- The subkey of two rotated halves, `permute(PC2, C ‖ D)` (R145). -/
def subkeyOf (c d : KeyHalf) : Subkey := permute Table.PC2 (c ++ d)

/-- `keySchedule(key)`: `K_j` at index `j - 1`, taken after round `j`'s rotation (R145, R147). -/
def keySchedule (key : Block) : RoundKeySet :=
  Vector.ofFn fun i : Fin 16 => subkeyOf (keyC key (i + 1)) (keyD key (i + 1))

/-- Accept of LDKEY (R150). The key itself is not kept (10_state.md R25). -/
def acceptLdkey (len : Nat) (key : Block) (s : State) : State :=
  if len ≠ 8 then raise .invalidKeySize s
  else { s.clearKV with C := keyC key 0, D := keyD key 0, RND := 0, PHASE := .keygen }

/-- LDKEY (R150). -/
def execLdkey (len : Nat) (key : Block) (s : State) : Host.Outcome State Fault Refusal :=
  accept (acceptLdkey len key) s

/-- KeygenStep number `j` = `RND` + 1 (R151): both halves rotate by `SHIFT[j]`, the subkey of the
new values goes to `K[j-1]`, and the 16th step ends the command with (`OK`, 0) and `KV` = 1. The
engine has no KeygenStep with `RND` above 15. -/
def keygenStep (s : State) : Host.Outcome State Fault Refusal :=
  if h : s.RND.toNat < 16 then
    let j := s.RND.toNat + 1
    let c := rotl s.C (shiftAmount j)
    let d := rotl s.D (shiftAmount j)
    let t := { s.writeSubkey ⟨s.RND.toNat, h⟩ (subkeyOf c d) with
                C := c, D := d, RND := BitVec.ofNat 5 j }
    .next (if j = 16 then t.setKV.respond statusOK 0 else t)
  else .fault .roundCounterOutOfRange

end Sys2Proof.Machine
end

