-- ==== Sys2Proof/Machine/Feistel.lean ====
section
/-!
DEFINITION. The Feistel network as a pure function (43_cipher_engine.md R180 to R186) and the commands
ENC and DEC with their RoundStep (R190 to R194).
-/

namespace Sys2Proof.Machine

/-- The index of the subkey of round `i` = `n` + 1: `i - 1` to encrypt, `16 - i` to decrypt (R183,
20_memory.md R61). -/
def subkeyIndex (dec : Bool) (n : Fin 16) : Fin 16 := if dec then ⟨15 - n, by omega⟩ else n

/-- One round: `L_i = R_{i-1}`, `R_i = L_{i-1} xor F(R_{i-1}, Kr_i)`, both from the values before
the round (R182). -/
def feistelRound (k : Subkey) (lr : Half × Half) : Half × Half := (lr.2, lr.1 ^^^ roundF lr.2 k)

/-- (`L_0`, `R_0`) of a block: the halves of `permute(IP, block)` (R181). -/
def initialHalves (block : Block) : Half × Half :=
  (positions (permute Table.IP block) 1 32, positions (permute Table.IP block) 33 32)

/-- (`L_i`, `R_i`) (R182, R183). The rule is used for i = 0..16; round 17 and later do not exist,
and the pair stays as it is there. -/
def roundHalves (ks : RoundKeySet) (dec : Bool) (block : Block) : Nat → Half × Half
  | 0 => initialHalves block
  | n + 1 =>
    if h : n < 16 then
      feistelRound (ks.get (subkeyIndex dec ⟨n, h⟩)) (roundHalves ks dec block n)
    else roundHalves ks dec block n

/-- The final step: `permute(FP, R_16 ‖ L_16)`, with exactly one swap (R184, 90_conflicts.md C2). -/
def finalBlock (lr : Half × Half) : Block := permute Table.FP (lr.2 ++ lr.1)

/-- `desBlock(KS, block, dec)` (R186). -/
def desBlock (ks : RoundKeySet) (block : Block) (dec : Bool) : Block :=
  finalBlock (roundHalves ks dec block 16)

/-- `encrypt(key, block)` (R186). -/
def encrypt (key block : Block) : Block := desBlock (keySchedule key) block false

/-- `decrypt(key, block)` (R186). -/
def decrypt (key block : Block) : Block := desBlock (keySchedule key) block true

/-- Accept of a block command (R192); the size check comes before the key check (R217). -/
def acceptBlock (dec : Bool) (len : Nat) (block : Block) (s : State) : State :=
  if len ≠ 8 then raise .invalidBlockSize s
  else if s.KV = false then raise .noKey s
  else { s with
    L := (initialHalves block).1, R := (initialHalves block).2, DEC := dec, RND := 0
    PHASE := .rounds }

/-- ENC (R190). -/
def execEnc (len : Nat) (block : Block) (s : State) : Host.Outcome State Fault Refusal :=
  accept (acceptBlock false len block) s

/-- DEC (R191). -/
def execDec (len : Nat) (block : Block) (s : State) : Host.Outcome State Fault Refusal :=
  accept (acceptBlock true len block) s

/-- RoundStep number `i` = `RND` + 1 (R193); the 16th ends the command with (`OK`, result) (R194).
The engine has no RoundStep with `RND` above 15. -/
def roundStep (s : State) : Host.Outcome State Fault Refusal :=
  if h : s.RND.toNat < 16 then
    let i := s.RND.toNat + 1
    let lr := feistelRound (s.readSubkey (subkeyIndex s.DEC ⟨s.RND.toNat, h⟩)) (s.L, s.R)
    let t := { s with L := lr.1, R := lr.2, RND := BitVec.ofNat 5 i }
    .next (if i = 16 then t.respond statusOK (finalBlock lr) else t)
  else .fault .roundCounterOutOfRange

end Sys2Proof.Machine
end

