-- ==== Sys2Proof/Machine/Reserved.lean ====
section
/-!
DEFINITION. The reserved opcode (30_encoding.md R89, 60_exceptions.md R212).
-/

namespace Sys2Proof.Machine

/-- RSVD: always rejected with `InvalidOperationFlag`, whatever its `len` and `data`, which are
ignored entirely (R83, R84, R212). -/
def execRsvd (_len : Nat) (_data : Block) (s : State) : Host.Outcome State Fault Refusal :=
  accept (raise .invalidOperationFlag) s

end Sys2Proof.Machine
end

