-- ==== Sys2Proof/Machine/Dispatch.lean ====
section
/-!
DEFINITION. Which meaning each command has: the four operations of 30_encoding.md R82.
-/

namespace Sys2Proof.Machine

def exec (i : Instr) (s : State) : Host.Outcome State Fault Refusal :=
  match i with
  | .rsvd len data => Sys2Proof.Machine.execRsvd len data s
  | .ldkey len key => Sys2Proof.Machine.execLdkey len key s
  | .enc len block => Sys2Proof.Machine.execEnc len block s
  | .dec len block => Sys2Proof.Machine.execDec len block s

end Sys2Proof.Machine
end

