-- ==== Sys2Proof/Machine/Step.lean ====
section
/-!
DEFINITION. One step of the engine (00_scope.md R14): the event of the step, chosen by the phase and
by the input ports' values of this step, with those values used up. The engine fetches no
instruction from a memory (10_state.md R30): a command is taken from the command port.
-/

namespace Sys2Proof.Machine

/-- One step (R14, R28, R32, R218). -/
def step (s : State) : Host.Outcome State Fault Refusal :=
  match nextEvent s with
  | .reset => .next (resetEvent s.tick)
  | .accept i => exec i s.tick
  | .keygenStep => keygenStep s.tick
  | .roundStep => roundStep s.tick
  | .deliver => .next (deliver s.tick)
  | .wait => .next s.tick

/-- `s` with the command word `w` presented on the command port in the next step, and the engine
ready to take it. Bits at and above `nbits` are 0; the port has 70 wires. -/
def State.withFetchWord (s : State) (nbits w : Nat) : State :=
  { s with
    PHASE := .idle
    inputs := s.now.present (BitVec.ofNat 70 (w % 2 ^ nbits)) :: s.inputs.tail }

end Sys2Proof.Machine
end

