-- ==== Sys2Proof/Machine/Transaction.lean ====
section
/-!
DEFINITION. The transaction level of the spec: the meaning of a whole command as one atomic transition
(41_key_schedule.md R153, 43_cipher_engine.md R196), the second of the two levels that "must agree"
(92_eei_decisions.md D1), and the schedule of input values that carries one command through the
step level (R260).
-/

namespace Sys2Proof.Machine

/-- The response to command `i` when `KV` = `kv` and the subkey store holds `ks` (R153, R196, R217). -/
def responseTo (i : Instr) (kv : Bool) (ks : RoundKeySet) : Response :=
  match i with
  | .rsvd _ _ => ⟨Rejection.invalidOperationFlag.code, 0⟩
  | .ldkey len _ =>
    if len ≠ 8 then ⟨Rejection.invalidKeySize.code, 0⟩ else ⟨statusOK, 0⟩
  | .enc len block =>
    if len ≠ 8 then ⟨Rejection.invalidBlockSize.code, 0⟩
    else if kv = false then ⟨Rejection.noKey.code, 0⟩
    else ⟨statusOK, desBlock ks block false⟩
  | .dec len block =>
    if len ≠ 8 then ⟨Rejection.invalidBlockSize.code, 0⟩
    else if kv = false then ⟨Rejection.noKey.code, 0⟩
    else ⟨statusOK, desBlock ks block true⟩

/-- Accept does not reject command `i` when `KV` = `kv` (R217). -/
def accepted (i : Instr) (kv : Bool) : Bool :=
  match i with
  | .rsvd _ _ => false
  | .ldkey len _ => len = 8
  | .enc len _ => len = 8 && kv
  | .dec len _ => len = 8 && kv

/-- The registers a command that is not rejected leaves, apart from the response (R153, R196). -/
def workOf (i : Instr) (s : State) : State :=
  match i with
  | .rsvd _ _ => s
  | .ldkey _ key =>
    { s with K := keySchedule key, KV := true, C := keyC key 0, D := keyD key 0, RND := 16 }
  | .enc _ block =>
    { s with
      L := (roundHalves s.K false block 16).1, R := (roundHalves s.K false block 16).2
      DEC := false, RND := 16 }
  | .dec _ block =>
    { s with
      L := (roundHalves s.K true block 16).1, R := (roundHalves s.K true block 16).2
      DEC := true, RND := 16 }

/-- A whole transaction of an idle engine: the command's registers, its response, delivered, and
phase IDLE again (R153, R196). -/
def transact (i : Instr) (s : State) : State :=
  let r := responseTo i s.KV s.K
  deliver ((if accepted i s.KV then workOf i s else s).respond r.status r.data)

/-- The engine's own steps between Accept and Deliver (R260). -/
def ownSteps (i : Instr) (kv : Bool) : Nat := if accepted i kv then 16 else 0

/-- The number of steps of a whole transaction (R260). -/
def transactionSteps (i : Instr) (kv : Bool) : Nat := ownSteps i kv + 2

end Sys2Proof.Machine
end

