-- ==== Sys2Proof/Machine/Script.lean ====
section
/-!
DEFINITION. The host's side of the ports, outside the engine: the command script (30_encoding.md R91)
as input values, and the pseudo-operations the host expands (R92): zero-padding, block splitting
and the declared length of a key file (70_reset_and_hazards.md R252). No hardware does any of this
(00_scope.md R6).
-/

namespace Sys2Proof.Machine

/-- One line of a command script (R91). -/
inductive ScriptLine where
  /-- `RESET` -/
  | reset
  /-- a command line -/
  | command (i : Instr)
deriving DecidableEq, Repr

/-- Input values on which the host presents command `i`. -/
def presenting (i : Instr) : PortIn := PortIn.quiet.present (encode i)

/-- Input values on which the host takes a response. -/
def taking : PortIn := { PortIn.quiet with rspReady := true }

/-- Input values on which reset is asserted. -/
def resetting : PortIn := { PortIn.quiet with rst := true }

/-- The input values of one script line, for an engine whose `KV` is `kv` before it: present the
command, wait for the engine's own steps, take the response (R91). -/
def ScriptLine.inputs (kv : Bool) : ScriptLine → List PortIn
  | .reset => [resetting]
  | .command i => presenting i :: List.replicate (ownSteps i kv) .quiet ++ [taking]

/-- `KV` after a script line: a reset clears it, a well-formed LDKEY leaves it set (R26). -/
def ScriptLine.keyValidAfter (kv : Bool) : ScriptLine → Bool
  | .reset => false
  | .command (.ldkey len _) => if len = 8 then true else kv
  | .command _ => kv

/-- The input values of a whole script. -/
def scriptInputs : Bool → List ScriptLine → List PortIn
  | _, [] => []
  | kv, l :: ls => l.inputs kv ++ scriptInputs (l.keyValidAfter kv) ls

/-- A short final block, zero-padded on the right up to 8 bytes (R252). -/
def padBlock (bytes : List Byte) : Block :=
  BitVec.ofNat 64 (bytesToNat (bytes ++ List.replicate (8 - bytes.length) 0))

/-- Consecutive 8-byte blocks of a message, the last one padded; `fuel` bounds their number. -/
def splitBlocks : Nat → List Byte → List Block
  | 0, _ => []
  | _, [] => []
  | fuel + 1, bytes => padBlock (bytes.take 8) :: splitBlocks fuel (bytes.drop 8)

/-- The pseudo-operation `ECB <dir> <key8> <message>` (R92): `dec` is the direction `-d`. -/
def ecbScript (dec : Bool) (key : Block) (message : List Byte) : List ScriptLine :=
  .command (.ldkey 8 key) ::
    (splitBlocks message.length message).map fun b =>
      .command (if dec then .dec 8 b else .enc 8 b)

/-- The pseudo-operation for a key file: `LDKEY/<n>` with `n` the file's length clamped to 15
(R92). -/
def keyFileLine (file : List Byte) : ScriptLine :=
  .command (.ldkey (min file.length 15) (padBlock (file.take 8)))

end Sys2Proof.Machine
end

