-- ==== Sys2Proof/Safety.lean ====
section
/-!
DEFINITION. What claims are stated in: the invariant of 10_state.md R37, what it is for a run to be
safe, when two states cannot be told apart by a host (R34), and whole scripts at the transaction
level (20_memory.md R65).
-/

namespace Sys2Proof

/-- Command `i` is a well-formed LDKEY, the start of a new lifetime of the engine (10_state.md R25). -/
def Instr.loadsKey : Instr → Bool
  | .ldkey len _ => len = 8
  | _ => false

end Sys2Proof

namespace Sys2Proof.Machine

/-- The invariant of R37, without its history: where the rule says "of the last well-formed LDKEY's
key" or "of the block in flight", here some key or block is meant, since the state does not keep
it. Clause 6 of the rule holds by the types of State. -/
structure Invariant (s : State) : Prop where
  /-- clause 1 -/
  rnd_le : s.RND.toNat ≤ 16
  /-- clause 2: a valid RoundKeySet is the key schedule of a key -/
  keyed : s.KV = true → ∃ key, s.K = keySchedule key
  /-- clause 3 -/
  keygen : s.PHASE = .keygen → s.KV = false ∧ s.RND.toNat ≤ 15 ∧
    ∃ key, s.C = keyC key s.RND.toNat ∧ s.D = keyD key s.RND.toNat ∧
      ∀ j : Fin 16, j.val < s.RND.toNat → s.K.get j = (keySchedule key).get j
  /-- clause 4 -/
  rounds : s.PHASE = .rounds → s.KV = true ∧ s.RND.toNat ≤ 15 ∧
    ∃ block, (s.L, s.R) = roundHalves s.K s.DEC block s.RND.toNat
  /-- clause 5: the response is the response to a command -/
  resp : s.PHASE = .resp → ∃ i : Instr, i.wellFormed = true ∧
    (⟨s.RSP_STATUS, s.RSP_DATA⟩ : Response) = responseTo i s.KV s.K

/-- `n` steps of the machine (Host.Core.run of `core`), stopping at the first fault or refusal. -/
def run (n : Nat) (s : State) : Host.Outcome State Fault Refusal := Sys2Proof.core.run n s

/-- The machine never stops: no fault and no refusal, however many steps. -/
def NeverStops (s : State) : Prop := ∀ n, ∃ t, run n s = .next t

/-- After `n` steps both machines are running, show the same outputs, and have delivered the same
responses. -/
def LookAlikeAfter (n : Nat) (s t : State) : Prop :=
  ∃ s' t' : State, run n s = .next s' ∧ run n t = .next t' ∧
    s'.outputs = t'.outputs ∧ s'.delivered = t'.delivered

/-- A list of commands, each as one atomic transaction (41_key_schedule.md R153, 43_cipher_engine.md
R196). -/
def transactAll (is : List Instr) (s : State) : State := is.foldl (fun s i => transact i s) s

/-- The input values of a list of commands sent one after the other to an engine whose `KV` is `kv`. -/
def commandInputs (kv : Bool) (is : List Instr) : List PortIn :=
  scriptInputs kv (is.map .command)

/-- The number of steps of a list of commands (70_reset_and_hazards.md R260). -/
def commandSteps (kv : Bool) (is : List Instr) : Nat := (commandInputs kv is).length

end Sys2Proof.Machine
end

