-- ==== Sys2Proof/Certificates/Slice0/Obligations.lean ====
section
/-!
DEFINITION. The statements for the provers, in the order of OBLIGATIONS.json: encoding, ports and reset,
the key schedule and LDKEY, the round function, the block commands, rejected commands, the whole
machine.
-/

open Sys2Proof Sys2Proof.Machine

/-! ### Encoding -/

/-- 30_encoding.md R81, R82, R88: no bit of a command is lost between encoder and decoder. The fields
RSVD keeps are the model's choice (notes/assumptions 9). -/
def Obligations.DecodeOfEncode : Prop :=
  ∀ i : Instr, i.wellFormed = true → decode (encode i) = i

/-- 30_encoding.md R88: every one of the 2^70 words decodes to one of the four commands. That a word can
be written back from its command is R88's for LDKEY, ENC and DEC; for `op` = `00` it is the model's
choice, since R88 shows RSVD with no operand and here RSVD keeps `len` and `data`
(notes/assumptions 9, DESIGN CHOICE). -/
def Obligations.EncodeOfDecode : Prop :=
  ∀ w : CmdWord, (decode w).wellFormed = true ∧ encode (decode w) = w

/-- 30_encoding.md R88 with the mask and match values it gives: decoding looks at bits 69 and 68
alone, and the operands of LDKEY, ENC and DEC are bits 67 to 64 and 63 to 0. That RSVD keeps the same
two fields is the model's choice (notes/assumptions 9, DESIGN CHOICE): R88 shows it with none. -/
def Obligations.DecodeFollowsOpcodeTable : Prop :=
  ∀ w : CmdWord,
    let op := w &&& 0x300000000000000000#70
    let len := w.toNat / 2 ^ 64 % 16
    let data := BitVec.ofNat 64 w.toNat
    (op = 0x000000000000000000#70 → decode w = .rsvd len data) ∧
    (op = 0x100000000000000000#70 → decode w = .ldkey len data) ∧
    (op = 0x200000000000000000#70 → decode w = .enc len data) ∧
    (op = 0x300000000000000000#70 → decode w = .dec len data) ∧
    (op = 0x000000000000000000#70 ∨ op = 0x100000000000000000#70 ∨
      op = 0x200000000000000000#70 ∨ op = 0x300000000000000000#70)

/-- 30_encoding.md R91 and 95_test_vectors.md V1, V22, V23, V28, V29: command words written out in
the spec stand for the commands it says; the fields of RSVD are the model's (notes/assumptions 9). -/
def Obligations.WrittenWordsDecode : Prop :=
  decode 0x18133457799BBCDFF1#70 = .ldkey 8 0x133457799BBCDFF1#64 ∧
  decode 0x280123456789ABCDEF#70 = .enc 8 0x0123456789ABCDEF#64 ∧
  decode 0x3885E813540F0AB405#70 = .dec 8 0x85E813540F0AB405#64 ∧
  decode 0x270123456789ABCDEF#70 = .enc 7 0x0123456789ABCDEF#64 ∧
  decode 0x3985E813540F0AB405#70 = .dec 9 0x85E813540F0AB405#64 ∧
  decode 0x03FFFFFFFFFFFFFFFF#70 = .rsvd 3 0xFFFFFFFFFFFFFFFF#64 ∧
  decode 0x10133457799BBCDFF1#70 = .ldkey 0 0x133457799BBCDFF1#64

/-- 30_encoding.md R91: the written form, nine bytes (18 hex digits, the top two bits always 0), is
read back with the bytes after it; a shorter string and a wider number are rejected by name
(notes/assumptions 14; for the fields of RSVD, 9). -/
def Obligations.WrittenFormReadBack : Prop :=
  (∀ (i : Instr) (rest : List Byte), i.wellFormed = true →
    decodeBytes (encodeBytes i ++ rest) = .ok (i, rest)) ∧
  (∀ i : Instr, i.wellFormed = true → decodeTableWord 72 (encode i).toNat = some i) ∧
  (∀ bs : List Byte, bs.length < 9 → decodeBytes bs = .error .truncated) ∧
  (∀ w : Nat, 2 ^ 70 ≤ w → decodeNat w = .error .bitsAboveWord)

/-! ### Ports, steps and reset -/

/-- A step runs the decoded command: when an idle engine is presented the word of a well-formed
command, the step is `exec` of that command, with this step's port values used up (10_state.md R32,
30_encoding.md R88). The second clause says so of `withFetchWord` (notes/assumptions 11). -/
def Obligations.StepRunsPresentedCommand : Prop :=
  (∀ (s : State) (i : Instr), i.wellFormed = true → s.PHASE = .idle → s.now.rst = false →
    s.now.cmdValid = true → s.now.word = encode i →
    step s = exec i { s with inputs := s.inputs.tail }) ∧
  (∀ (s : State) (i : Instr), i.wellFormed = true →
    step (s.withFetchWord 72 (encode i).toNat) =
      exec i { s with PHASE := .idle, inputs := s.inputs.tail })

/-- 10_state.md R33: the outputs are functions of the state, valid in every step. -/
def Obligations.OutputsFollowPhase : Prop :=
  ∀ s : State,
    (s.outputs.cmdReady = true ↔ s.PHASE = .idle) ∧
    (s.outputs.rspValid = true ↔ s.PHASE = .resp) ∧
    s.outputs.keyValid = s.KV ∧
    (s.PHASE = .resp → s.outputs.response = some ⟨s.RSP_STATUS, s.RSP_DATA⟩) ∧
    ¬ (s.outputs.cmdReady = true ∧ s.outputs.rspValid = true)

/-- Clauses 1 to 3 are 10_state.md R32: when a command is accepted and a response delivered, and that a
command presented while `cmd_ready` = 0 has no effect: the step is the same whatever the command port
carries. Clause 4, a meaning reached on a busy engine changes nothing, is the model's
(notes/assumptions 8, DEDUCED): no step makes that call. -/
def Obligations.HandshakeRule : Prop :=
  (∀ s : State, s.now.rst = false → s.now.cmdValid = true → s.outputs.cmdReady = true →
    step s = exec (decode s.now.word) s.tick) ∧
  (∀ s : State, s.now.rst = false → s.now.rspReady = true → s.outputs.rspValid = true →
    step s = .next (deliver s.tick)) ∧
  (∀ (s : State) (p q : PortIn) (rest : List PortIn), s.outputs.cmdReady = false →
    p.rst = q.rst → p.rspReady = q.rspReady →
    step { s with inputs := p :: rest } = step { s with inputs := q :: rest }) ∧
  (∀ (s : State) (i : Instr), s.outputs.cmdReady = false → exec i s = .next s)

/-- 10_state.md R28, 70_reset_and_hazards.md R251: in IDLE and RESP the engine waits for the host and
has no step of its own, without limit. -/
def Obligations.WaitingChangesNothing : Prop :=
  (∀ s : State, s.PHASE = .idle → s.now.rst = false → s.now.cmdValid = false →
    step s = .next { s with inputs := s.inputs.tail }) ∧
  (∀ s : State, s.PHASE = .resp → s.now.rst = false → s.now.rspReady = false →
    step s = .next { s with inputs := s.inputs.tail })

/-- 70_reset_and_hazards.md R241: a reset from any state, whatever else the step would have done. The
transaction in flight and a waiting response are dropped: nothing is delivered. -/
def Obligations.ResetEventFromAnyState : Prop :=
  ∀ s : State, s.now.rst = true →
    ∃ t : State, step s = .next t ∧ t.PHASE = .idle ∧ t.RND = 0 ∧ t.KV = false ∧
      t.delivered = s.delivered ∧ t.inputs = s.inputs.tail

/-- 10_state.md R38: the registers the spec fixes after reset and the outputs they give. The other
registers hold free values (notes/assumptions 4), of which nothing is said. -/
def Obligations.ResetStateOutputs : Prop :=
  State.reset.PHASE = .idle ∧ State.reset.RND = 0 ∧ State.reset.KV = false ∧
  State.reset.outputs = { cmdReady := true, rspValid := false, keyValid := false, response := none }

/-! ### Bit conversion, permutation, rotation -/

/-- 20_memory.md R51: where a byte and a DES position stand on a 64-bit port, and that the port value
is the big-endian number of the eight bytes. -/
def Obligations.PortByteOrder : Prop :=
  ∀ v : Block,
    (∀ p, 1 ≤ p → p ≤ 64 → bitAt v p = (portByte v ((p - 1) / 8)).getLsbD (7 - (p - 1) % 8)) ∧
    (∀ p, 1 ≤ p → p ≤ 64 → bitAt v p = v.getLsbD (64 - p)) ∧
    bytesToNat (portBytes v) = v.toNat ∧
    bytesToBits (portBytes v) = toBits v

/-- 20_memory.md R53, R54: the byte and bit conversions are inverse to each other, and
`bitsToBytes` fails on a length that is not a multiple of 8. -/
def Obligations.ByteBitRoundTrip : Prop :=
  (∀ bytes : List Byte, bitsToBytes (bytesToBits bytes) = .ok bytes) ∧
  (∀ bits : List Bool, bits.length % 8 = 0 →
    ∃ bytes, bitsToBytes bits = .ok bytes ∧ bytesToBits bytes = bits) ∧
  (∀ bits : List Bool, bits.length % 8 ≠ 0 → bitsToBytes bits = .error .sizeMismatch)

/-- 40_bit_conversion_and_permutation.md R115: output position `i` reads input position `T[i]`; the
primitive on arbitrary lengths fails on an input shorter than `max(table)`, and on the engine's
fixed widths it agrees with `permute`. -/
def Obligations.PermuteReadsTable : Prop :=
  (∀ (n m : Nat) (T : PermTable n m) (v : BitVec n) (i : Nat), 1 ≤ i → i ≤ m →
    bitAt (permute T v) i = bitAt v (T.entries.getD (i - 1) 0)) ∧
  (∀ (n m : Nat) (T : PermTable n m) (v : BitVec n),
    applyPermutation T.entries (toBits v) = .ok (toBits (permute T v))) ∧
  (∀ (table : List Nat) (input : List Bool), (∃ t ∈ table, input.length < t) →
    applyPermutation table input = .error .sizeMismatch)

/-- 40_bit_conversion_and_permutation.md R116 (3): `permute` distributes over XOR. -/
def Obligations.PermuteDistributesOverXor : Prop :=
  ∀ (n m : Nat) (T : PermTable n m) (a b : BitVec n),
    permute T (a ^^^ b) = permute T a ^^^ permute T b

/-- 40_bit_conversion_and_permutation.md R124: the six facts about the tables. -/
def Obligations.TablesWellFormed : Prop :=
  Table.IP.entries.Perm (List.range' 1 64) ∧
  Table.FP.entries.Perm (List.range' 1 64) ∧
  Table.P.entries.Perm (List.range' 1 32) ∧
  (Table.PC1.entries.Nodup ∧ ∀ p ∈ List.range' 1 64, p ∈ Table.PC1.entries ↔ p % 8 ≠ 0) ∧
  (Table.PC2.entries.Nodup ∧
    ∀ p ∈ List.range' 1 56, p ∈ Table.PC2.entries ↔ p ∉ [9, 18, 22, 25, 35, 38, 43, 54]) ∧
  (∀ p ∈ List.range' 1 32, Table.E.entries.count p =
    if p ∈ [1, 4, 5, 8, 9, 12, 13, 16, 17, 20, 21, 24, 25, 28, 29, 32] then 2 else 1)

/-- 40_bit_conversion_and_permutation.md R119: FP is the inverse of IP. -/
def Obligations.FinalPermutationInvertsInitial : Prop :=
  ∀ v : Block, permute Table.FP (permute Table.IP v) = v ∧ permute Table.IP (permute Table.FP v) = v

/-- 40_bit_conversion_and_permutation.md R125: rotation bit by bit, as a number, and its three laws. -/
def Obligations.RotationLaws : Prop :=
  ∀ (n : Nat) (v : BitVec n),
    (∀ s i, s ≤ n → 1 ≤ i → i ≤ n → bitAt (rotl v s) i = bitAt v ((i - 1 + s) % n + 1)) ∧
    (∀ s, s ≤ n → (rotl v s).toNat = (v.toNat <<< s ||| v.toNat >>> (n - s)) % 2 ^ n) ∧
    rotl v 0 = v ∧ rotl v n = v ∧
    (∀ a b, a ≤ n → b ≤ n → rotl (rotl v a) b = rotl v ((a + b) % n))

/-! ### The key schedule and LDKEY -/

/-- 41_key_schedule.md R150: Accept of LDKEY, the well-formed one and the rejected one, with its frame:
every register not named is unchanged. -/
def Obligations.LdkeyAccept : Prop :=
  ∀ (len : Nat) (key : Block) (s : State), s.PHASE = .idle →
    (len ≠ 8 → exec (.ldkey len key) s =
      .next { s with RSP_STATUS := 1, RSP_DATA := 0, PHASE := .resp }) ∧
    (len = 8 → exec (.ldkey len key) s =
      .next { s with
        C := positions (permute Table.PC1 key) 1 28
        D := positions (permute Table.PC1 key) 29 28
        KV := false, RND := 0, PHASE := .keygen })

/-- 41_key_schedule.md R151: one KeygenStep, `j` = `RND` + 1, with its frame. The entry written is
`K[j-1]`, from the values after the rotation. Sixteen of them follow a well-formed Accept, with no
other step between, unless reset is asserted. -/
def Obligations.KeygenStepRule : Prop :=
  (∀ s : State, s.PHASE = .keygen → s.RND = 0 → (∀ p ∈ s.inputs.take 16, p.rst = false) →
    (∀ n, n < 16 → ∃ t, run n s = .next t ∧ nextEvent t = .keygenStep) ∧
    ∃ t, run 16 s = .next t ∧ t.PHASE = .resp) ∧
  ∀ (s : State) (h : s.RND.toNat < 16), s.PHASE = .keygen → s.now.rst = false →
    let j := s.RND.toNat + 1
    let c := rotl s.C (Table.SHIFT.getD (j - 1) 0)
    let d := rotl s.D (Table.SHIFT.getD (j - 1) 0)
    step s = .next { s with
      C := c, D := d
      K := s.K.set s.RND.toNat (permute Table.PC2 (c ++ d)) h
      RND := BitVec.ofNat 5 j
      KV := if j = 16 then true else s.KV
      RSP_STATUS := if j = 16 then 0 else s.RSP_STATUS
      RSP_DATA := if j = 16 then 0 else s.RSP_DATA
      PHASE := if j = 16 then .resp else .keygen
      inputs := s.inputs.tail }

/-- 41_key_schedule.md R153: a whole LDKEY transaction, run step by step, from the word on the command
port to the delivered response. The host may drive anything on the command port in between; it
does not assert reset. While a well-formed LDKEY runs, the ports show `cmd_ready` = 0 and
`key_valid` = 0 and nothing else. -/
def Obligations.LdkeyTransaction : Prop :=
  ∀ (s : State) (len : Nat) (key : Block) (first last : PortIn) (waits rest : List PortIn),
    s.PHASE = .idle → s.inputs = first :: (waits ++ last :: rest) → len ≤ 15 →
    first.rst = false → first.cmdValid = true → first.word = encode (.ldkey len key) →
    (∀ p ∈ waits, p.rst = false) → last.rst = false → last.rspReady = true →
    (len = 8 → waits.length = 16 → run 18 s = .next { s with
      K := keySchedule key, KV := true, C := keyC key 0, D := keyD key 0, RND := 16
      RSP_STATUS := 0, RSP_DATA := 0, inputs := rest
      delivered := s.delivered ++ [⟨0, 0⟩] } ∧
      ∀ n, 1 ≤ n → n ≤ 16 → ∃ t, run n s = .next t ∧ t.outputs =
        { cmdReady := false, rspValid := false, keyValid := false, response := none }) ∧
    (len ≠ 8 → waits = [] → run 2 s = .next { s with
      RSP_STATUS := 1, RSP_DATA := 0, inputs := rest
      delivered := s.delivered ++ [⟨1, 0⟩] })

/-- 41_key_schedule.md R146: the sixteen rotations return each half to its first value. -/
def Obligations.RotationClosure : Prop :=
  (∀ v : KeyHalf, (List.range' 1 16).foldl (fun w j => rotl w (shiftAmount j)) v = v) ∧
  (∀ key : Block, keyC key 16 = keyC key 0 ∧ keyD key 16 = keyD key 0)

/-- 41_key_schedule.md R149: the cumulative form, and that every bit of every subkey is one fixed bit of
the key. -/
def Obligations.CumulativeSubkeyBits : Prop :=
  ∀ (key : Block) (j : Fin 16),
    let cum := [1, 2, 4, 6, 8, 10, 12, 14, 15, 17, 19, 21, 23, 25, 27, 28].getD j.val 0
    keyC key (j + 1) = rotl (keyC key 0) cum ∧ keyD key (j + 1) = rotl (keyD key 0) cum ∧
    ∀ i, 1 ≤ i → i ≤ 48 →
      let p := Table.PC2.entries.getD (i - 1) 0
      let q := if p ≤ 28 then (p - 1 + cum) % 28 + 1 else 28 + (p - 29 + cum) % 28 + 1
      bitAt ((keySchedule key).get j) i = bitAt key (Table.PC1.entries.getD (q - 1) 0)

/-- 41_key_schedule.md R148: the parity positions reach no subkey, and no key value is rejected. -/
def Obligations.ParityBitsIgnored : Prop :=
  (∀ key key' : Block, (∀ p, 1 ≤ p → p ≤ 64 → p % 8 ≠ 0 → bitAt key p = bitAt key' p) →
    keySchedule key = keySchedule key' ∧
      ∀ block, encrypt key block = encrypt key' block ∧ decrypt key block = decrypt key' block) ∧
  (∀ (key : Block) (s : State), s.PHASE = .idle →
    ∃ t, exec (.ldkey 8 key) s = .next t ∧ t.PHASE = .keygen)

/-- 41_key_schedule.md R155: keys whose halves are constant give equal subkeys. -/
def Obligations.ConstantKeyCorners : Prop :=
  (∀ j, keyC 0 j = 0 ∧ keyD 0 j = 0) ∧
  (∀ j, keyC 0xFFFFFFFFFFFFFFFF j = 0xFFFFFFF ∧ keyD 0xFFFFFFFFFFFFFFFF j = 0xFFFFFFF) ∧
  (∀ i : Fin 16, (keySchedule 0).get i = 0 ∧ (keySchedule 0x0101010101010101).get i = 0 ∧
    (keySchedule 0xFFFFFFFFFFFFFFFF).get i = 0xFFFFFFFFFFFF) ∧
  (∀ key : Block, (keyC key 0 = 0 ∨ keyC key 0 = 0xFFFFFFF) → (keyD key 0 = 0 ∨ keyD key 0 = 0xFFFFFFF) →
    (∀ i j : Fin 16, (keySchedule key).get i = (keySchedule key).get j) ∧
      ∀ block, encrypt key block = decrypt key block)

/-! ### The round function -/

/-- 42_round_function.md R170: every lookup is in range and gives the table's value, and every row of
every box is a permutation of 0..15. -/
def Obligations.SboxLookupsInRange : Prop :=
  ∀ i, i < 8 →
    (∀ g : BitVec 6, sboxRow g ≤ 3 ∧ sboxColumn g ≤ 15 ∧
      (sbox i g).toNat = ((Table.SBOX.getD i []).getD (sboxRow g) []).getD (sboxColumn g) 16) ∧
    (∀ r, r < 4 → ((Table.SBOX.getD i []).getD r []).Perm (List.range 16))

/-- 42_round_function.md R168: the box addressed by the raw 6-bit value gives the same nibble. -/
def Obligations.FlatSboxAgrees : Prop :=
  ∀ i, i < 8 → ∀ g : BitVec 6, (sbox i g).toNat = sboxFlat i g.toNat

/-- 42_round_function.md R171: expansion, key mixing and P are linear over XOR, substitution is not
(not even up to a constant); F depends on its arguments only through `permute(E, R) xor K`. -/
def Obligations.RoundFunctionDependsOnSum : Prop :=
  (∀ a b : Half, expand (a ^^^ b) = expand a ^^^ expand b ∧
    permute Table.P (a ^^^ b) = permute Table.P a ^^^ permute Table.P b) ∧
  (∀ (a b : Half) (k l : Subkey), mixKey (a ^^^ b) (k ^^^ l) = mixKey a k ^^^ mixKey b l) ∧
  (∃ x y z : Subkey,
    substitute (x ^^^ y ^^^ z) ≠ substitute x ^^^ substitute y ^^^ substitute z) ∧
  (∀ (r a : Half) (k : Subkey), roundF r k = roundF (r ^^^ a) (k ^^^ permute Table.E a)) ∧
  (∀ (r : Half) (k : Subkey), roundF (~~~r) (~~~k) = roundF r k)

/-- 42_round_function.md R173: the worked values of F, with the inside of each. -/
def Obligations.RoundFunctionWorkedValues : Prop :=
  (substitute (mixKey 0x00000000 0x000000000000) = 0xEFA72C4D ∧
    roundF 0x00000000 0x000000000000 = 0xD8D8DBBC) ∧
  (substitute (mixKey 0xFFFFFFFF 0x000000000000) = 0xD9CE3DCB ∧
    roundF 0xFFFFFFFF 0x000000000000 = 0x38DBF9CB) ∧
  roundF 0x00000000 0xFFFFFFFFFFFF = 0x38DBF9CB ∧
  roundF 0xFFFFFFFF 0xFFFFFFFFFFFF = 0xD8D8DBBC ∧
  (expand 0xF0AAF0AA = 0x7A15557A1555 ∧ mixKey 0xF0AAF0AA 0x1B02EFFC7072 = 0x6117BA866527 ∧
    substitute 0x6117BA866527 = 0x5C82B597 ∧ roundF 0xF0AAF0AA 0x1B02EFFC7072 = 0x234AA9BB)

/-! ### ENC and DEC -/

/-- 43_cipher_engine.md R192: Accept of a block command, the well-formed one and the two rejected ones,
with its frame; `op[1]` marks the block command and `op[0]` gives the direction. -/
def Obligations.BlockAccept : Prop :=
  ∀ (dec : Bool) (len : Nat) (block : Block) (s : State), s.PHASE = .idle →
    let command := if dec then Instr.dec len block else Instr.enc len block
    ((encode command).getLsbD 69 = true ∧ (encode command).getLsbD 68 = dec) ∧
    (len ≠ 8 → exec command s =
      .next { s with RSP_STATUS := 2, RSP_DATA := 0, PHASE := .resp }) ∧
    (len = 8 → s.KV = false → exec command s =
      .next { s with RSP_STATUS := 4, RSP_DATA := 0, PHASE := .resp }) ∧
    (len = 8 → s.KV = true → exec command s =
      .next { s with
        L := positions (permute Table.IP block) 1 32
        R := positions (permute Table.IP block) 33 32
        DEC := dec, RND := 0, PHASE := .rounds })

/-- 43_cipher_engine.md R193, R194: one RoundStep, `i` = `RND` + 1, with its frame; the 16th gives the
result of `R_16 ‖ L_16`. Sixteen of them follow a well-formed Accept, with no other step between,
unless reset is asserted, and round `i` takes (`L_{i-1}`, `R_{i-1}`) to (`L_i`, `R_i`). -/
def Obligations.RoundStepRule : Prop :=
  (∀ s : State, s.PHASE = .rounds → s.RND = 0 → (∀ p ∈ s.inputs.take 16, p.rst = false) →
    (∀ n, n < 16 → ∃ t, run n s = .next t ∧ nextEvent t = .roundStep) ∧
    ∃ t, run 16 s = .next t ∧ t.PHASE = .resp) ∧
  ∀ (s : State) (h : s.RND.toNat < 16), s.PHASE = .rounds → s.now.rst = false →
    let i := s.RND.toNat + 1
    let k := if s.DEC then s.K[15 - s.RND.toNat] else s.K[s.RND.toNat]
    let l := s.R
    let r := s.L ^^^ roundF s.R k
    (∀ block, (s.L, s.R) = roundHalves s.K s.DEC block s.RND.toNat →
      (l, r) = roundHalves s.K s.DEC block i) ∧
    step s = .next { s with
      L := l, R := r
      RND := BitVec.ofNat 5 i
      RSP_STATUS := if i = 16 then 0 else s.RSP_STATUS
      RSP_DATA := if i = 16 then permute Table.FP (r ++ l) else s.RSP_DATA
      PHASE := if i = 16 then .resp else .rounds
      inputs := s.inputs.tail }

/-- 43_cipher_engine.md R196: a whole ENC or DEC transaction, run step by step, from the word on the
command port to the delivered response. While the rounds run, the ports show `cmd_ready` = 0 and
no response. -/
def Obligations.BlockTransaction : Prop :=
  ∀ (s : State) (dec : Bool) (len : Nat) (block : Block) (first last : PortIn)
    (waits rest : List PortIn),
    let command := if dec then Instr.dec len block else Instr.enc len block
    s.PHASE = .idle → s.inputs = first :: (waits ++ last :: rest) → len ≤ 15 →
    first.rst = false → first.cmdValid = true → first.word = encode command →
    (∀ p ∈ waits, p.rst = false) → last.rst = false → last.rspReady = true →
    (len ≠ 8 → waits = [] → run 2 s = .next { s with
      RSP_STATUS := 2, RSP_DATA := 0, inputs := rest
      delivered := s.delivered ++ [⟨2, 0⟩] }) ∧
    (len = 8 → s.KV = false → waits = [] → run 2 s = .next { s with
      RSP_STATUS := 4, RSP_DATA := 0, inputs := rest
      delivered := s.delivered ++ [⟨4, 0⟩] }) ∧
    (len = 8 → s.KV = true → waits.length = 16 → run 18 s = .next { s with
      L := (roundHalves s.K dec block 16).1, R := (roundHalves s.K dec block 16).2
      DEC := dec, RND := 16
      RSP_STATUS := 0, RSP_DATA := desBlock s.K block dec, inputs := rest
      delivered := s.delivered ++ [⟨0, desBlock s.K block dec⟩] } ∧
      ∀ n, 1 ≤ n → n ≤ 16 → ∃ t, run n s = .next t ∧ t.outputs =
        { cmdReady := false, rspValid := false, keyValid := true, response := none })

/-- 43_cipher_engine.md R197: decryption undoes encryption and the reverse, for every key and block. -/
def Obligations.RoundTrip : Prop :=
  (∀ key block : Block, decrypt key (encrypt key block) = block ∧
    encrypt key (decrypt key block) = block) ∧
  (∀ (ks : RoundKeySet) (block : Block) (dec : Bool),
    desBlock ks (desBlock ks block dec) (!dec) = block)

/-- 43_cipher_engine.md R199: with sixteen equal subkeys ENC and DEC are the same function and ENC is its
own inverse. -/
def Obligations.EqualSubkeysSelfInverse : Prop :=
  (∀ ks : RoundKeySet, (∀ i j : Fin 16, ks.get i = ks.get j) → ∀ block : Block,
    desBlock ks block false = desBlock ks block true ∧
    desBlock ks (desBlock ks block false) false = block) ∧
  (∀ i j : Fin 16, (keySchedule 0x0101010101010101).get i = (keySchedule 0x0101010101010101).get j)

/-- 43_cipher_engine.md R200: the complementation property. -/
def Obligations.Complementation : Prop :=
  ∀ key block : Block, encrypt (~~~key) (~~~block) = ~~~(encrypt key block)

/-- 43_cipher_engine.md R201: the source's known-answer vector. -/
def Obligations.KnownAnswer : Prop :=
  encrypt 0x133457799BBCDFF1 0x0123456789ABCDEF = 0x85E813540F0AB405

/-! ### Rejected commands and responses -/

/-- 60_exceptions.md R212: RSVD is answered `InvalidOperationFlag`, whatever its fields, with its
frame. -/
def Obligations.ReservedOpcodeRejected : Prop :=
  ∀ (len : Nat) (data : Block) (s : State), s.PHASE = .idle →
    exec (.rsvd len data) s = .next { s with RSP_STATUS := 3, RSP_DATA := 0, PHASE := .resp }

/-- 60_exceptions.md R217 (and R210, R211, R212, R213, R216): which rejection is reported when several
causes apply, that it changes nothing but the response, and that no other command is rejected. -/
def Obligations.RejectionPriority : Prop :=
  ∀ (i : Instr) (s : State), s.PHASE = .idle →
    let rejectedWith := fun c : StatusCode =>
      ({ s with RSP_STATUS := c, RSP_DATA := 0, PHASE := .resp } : State)
    (i.opcode = 0b00 → exec i s = .next (rejectedWith 3)) ∧
    (i.opcode = 0b01 → i.len ≠ 8 → exec i s = .next (rejectedWith 1)) ∧
    (i.opcode = 0b10 ∨ i.opcode = 0b11 → i.len ≠ 8 → exec i s = .next (rejectedWith 2)) ∧
    (i.opcode = 0b10 ∨ i.opcode = 0b11 → i.len = 8 → s.KV = false →
      exec i s = .next (rejectedWith 4)) ∧
    (i.opcode = 0b01 → i.len = 8 → ∃ t, exec i s = .next t ∧ t.PHASE = .keygen) ∧
    (i.opcode = 0b10 ∨ i.opcode = 0b11 → i.len = 8 → s.KV = true →
      ∃ t, exec i s = .next t ∧ t.PHASE = .rounds)

/-- 60_exceptions.md R220: after a rejected command and its response the engine goes on exactly as if
the command had never been presented, apart from the response delivered, whose status is not OK and
whose data is zero. -/
def Obligations.RejectedCommandLeavesNoTrace : Prop :=
  ∀ (s : State) (i : Instr) (first last : PortIn) (rest : List PortIn),
    s.PHASE = .idle → s.inputs = first :: last :: rest → i.wellFormed = true →
    first.rst = false → first.cmdValid = true → first.word = encode i →
    last.rst = false → last.rspReady = true → accepted i s.KV = false →
    let r := responseTo i s.KV s.K
    r.status ≠ 0 ∧ r.data = 0 ∧
    run 2 s = .next { s with
      RSP_STATUS := r.status, RSP_DATA := 0, inputs := rest, delivered := s.delivered ++ [r] } ∧
    ∀ n, ∃ u v : State, ∃ later : List Response,
      run (2 + n) s = .next u ∧
      run n { s with inputs := rest } = .next v ∧
      u.outputs = v.outputs ∧ v.delivered = s.delivered ++ later ∧
      u.delivered = s.delivered ++ [r] ++ later

/-- 30_encoding.md R84: the operand of a rejected command is ignored entirely, and DES position `p` of
an operand is bit `64 - p` of the command word. -/
def Obligations.RejectedOperandIgnored : Prop :=
  (∀ (len len' : Nat) (data data' : Block) (s : State),
    exec (.rsvd len data) s = exec (.rsvd len' data') s) ∧
  (∀ (len : Nat) (data data' : Block) (s : State), len ≠ 8 →
    exec (.ldkey len data) s = exec (.ldkey len data') s ∧
    exec (.enc len data) s = exec (.enc len data') s ∧
    exec (.dec len data) s = exec (.dec len data') s) ∧
  (∀ (i : Instr) (p : Nat), 1 ≤ p → p ≤ 64 → bitAt i.data p = (encode i).getLsbD (64 - p))

/-- 60_exceptions.md R219: Deliver, the return from a fault and the end of every command: the host gets
the response, `PHASE` is IDLE, and no other register changes. -/
def Obligations.DeliverReturnsToIdle : Prop :=
  ∀ s : State, s.PHASE = .resp → s.now.rst = false → s.now.rspReady = true →
    step s = .next { s with
      PHASE := .idle, inputs := s.inputs.tail
      delivered := s.delivered ++ [⟨s.RSP_STATUS, s.RSP_DATA⟩] }

/-! ### The whole machine -/

/-- 10_state.md R37: every step keeps the invariant, from any state that meets it. -/
def Obligations.InvariantKept : Prop :=
  ∀ s t : State, Invariant s → step s = .next t → Invariant t

/-- 10_state.md R37: the state after reset meets the invariant, whatever its unspecified registers
hold. -/
def Obligations.InvariantAtReset : Prop :=
  ∀ inputs : List PortIn, Invariant { State.reset with inputs := inputs }

/-- A state that meets the invariant never stops: the model's own fault (notes/assumptions 7) is out of
reach, as R214 and R151, R193 say of the spec's steps ("a RoundStep cannot fail"). -/
def Obligations.InvariantNeverStops : Prop :=
  ∀ s : State, Invariant s → NeverStops s

/-- 10_state.md R28: the phase after a step, from every phase. -/
def Obligations.PhaseTransitions : Prop :=
  ∀ s t : State, step s = .next t →
    (s.now.rst = true → t.PHASE = .idle) ∧
    (s.now.rst = false →
      (s.PHASE = .idle → t.PHASE =
        if s.now.cmdValid = false then .idle
        else if accepted (decode s.now.word) s.KV = false then .resp
        else if (decode s.now.word).loadsKey then .keygen else .rounds) ∧
      (s.PHASE = .keygen → t.PHASE = if s.RND.toNat = 15 then .resp else .keygen) ∧
      (s.PHASE = .rounds → t.PHASE = if s.RND.toNat = 15 then .resp else .rounds) ∧
      (s.PHASE = .resp → t.PHASE = if s.now.rspReady then .idle else .resp))

/-- 10_state.md R29: what a step does to `RND`, which never exceeds 16 and never wraps. -/
def Obligations.RoundCounterRule : Prop :=
  ∀ s t : State, step s = .next t → s.now.rst = false →
    (s.PHASE = .idle → s.now.cmdValid = true → accepted (decode s.now.word) s.KV = true →
      t.RND = 0) ∧
    (s.PHASE = .idle → (s.now.cmdValid = false ∨ accepted (decode s.now.word) s.KV = false) →
      t.RND = s.RND) ∧
    (s.PHASE = .keygen ∨ s.PHASE = .rounds → s.RND.toNat ≤ 15 ∧ t.RND.toNat = s.RND.toNat + 1 ∧
      (s.RND.toNat = 15 ↔ t.PHASE = .resp)) ∧
    (s.PHASE = .resp → t.RND = s.RND)

/-- 10_state.md R26: every way `KV` can change, that it is 0 after reset, that ENC and DEC read it, and
that it is visible on `key_valid`. -/
def Obligations.KeyValidRule : Prop :=
  State.reset.KV = false ∧
  (∀ s t : State, step s = .next t →
    t.KV = if s.now.rst then false
      else if s.PHASE = .idle ∧ s.now.cmdValid = true ∧ (decode s.now.word).loadsKey = true then false
      else if s.PHASE = .keygen ∧ s.RND.toNat = 15 then true
      else s.KV) ∧
  (∀ (s : State) (block : Block), s.PHASE = .idle → s.KV = false →
    exec (.enc 8 block) s = .next { s with RSP_STATUS := 4, RSP_DATA := 0, PHASE := .resp } ∧
    exec (.dec 8 block) s = .next { s with RSP_STATUS := 4, RSP_DATA := 0, PHASE := .resp }) ∧
  (∀ s : State, s.outputs.keyValid = s.KV)

/-- 10_state.md R20, column "written by": a register changes only in a step of one of its writers. -/
def Obligations.RegistersChangeOnlyByTheirWriters : Prop :=
  ∀ s t : State, step s = .next t →
    let e := nextEvent s
    let takesKey := ∃ i, e = .accept i ∧ i.loadsKey = true
    let takesBlock := ∃ len block, e = .accept (.enc len block) ∨ e = .accept (.dec len block)
    let takesRejected := ∃ i, e = .accept i ∧ accepted i s.KV = false
    let sixteenth := s.RND.toNat = 15 ∧ (e = .keygenStep ∨ e = .roundStep)
    e = .reset ∨
    ((t.K = s.K ∨ e = .keygenStep) ∧
     (∀ i : Fin 16, i.val ≠ s.RND.toNat → t.K.get i = s.K.get i) ∧
     (t.KV = s.KV ∨ takesKey ∨ (e = .keygenStep ∧ s.RND.toNat = 15)) ∧
     (t.C = s.C ∧ t.D = s.D ∨ takesKey ∨ e = .keygenStep) ∧
     (t.L = s.L ∧ t.R = s.R ∨ takesBlock ∨ e = .roundStep) ∧
     (t.DEC = s.DEC ∨ takesBlock) ∧
     (t.RND = s.RND ∨ takesKey ∨ takesBlock ∨ e = .keygenStep ∨ e = .roundStep) ∧
     (t.RSP_STATUS = s.RSP_STATUS ∧ t.RSP_DATA = s.RSP_DATA ∨ takesRejected ∨ sixteenth))

/-- 20_memory.md R57, R65: a step delivers the pending response exactly when the host takes it, and
otherwise delivers nothing. -/
def Obligations.ResponsesDeliveredOnce : Prop :=
  ∀ s t : State, step s = .next t →
    t.delivered = s.delivered ++
      (if s.now.rst = false ∧ s.PHASE = .resp ∧ s.now.rspReady = true
        then [⟨s.RSP_STATUS, s.RSP_DATA⟩] else [])

/-- 70_reset_and_hazards.md R260, the liveness a model must keep: a command in flight ends in a response
after the steps it has left, unless it is reset. -/
def Obligations.CommandInFlightEnds : Prop :=
  ∀ s : State, (s.PHASE = .keygen ∨ s.PHASE = .rounds) → s.RND.toNat ≤ 15 →
    (∀ p ∈ s.inputs.take (16 - s.RND.toNat), p.rst = false) →
    ∃ t : State, run (16 - s.RND.toNat) s = .next t ∧ t.PHASE = .resp ∧ t.RND = 16

/-- 10_state.md R34: states that agree on the observable registers cannot be told apart by any sequence
of commands. -/
def Obligations.HiddenRegistersUnobservable : Prop :=
  ∀ (s t : State) (n : Nat), (s.PHASE = .idle ∨ s.PHASE = .resp) → s.PHASE = t.PHASE →
    s.K = t.K → s.KV = t.KV → s.RSP_STATUS = t.RSP_STATUS → s.RSP_DATA = t.RSP_DATA →
    s.inputs = t.inputs → s.delivered = t.delivered → LookAlikeAfter n s t

/-- 10_state.md R39: no response depends on what the unspecified registers hold after reset. That no
output the model shows depends on them either rests on the model's showing no response while
`rsp_valid` = 0 (notes/assumptions 6, DEDUCED), where R33 leaves the two response ports unspecified:
of those bits nothing is said. -/
def Obligations.ResetContentsNeverSeen : Prop :=
  ∀ (s t : State) (n : Nat),
    s.PHASE = .idle → s.RND = 0 → s.KV = false → t.PHASE = .idle → t.RND = 0 → t.KV = false →
    s.inputs = t.inputs → s.delivered = t.delivered → LookAlikeAfter n s t

/-- 92_eei_decisions.md D1, 20_memory.md R65: the step level refines the transaction level. Commands sent
one after the other to an idle engine run to exactly the state the atomic transactions give, and
deliver one response each, in order. The host presents the next command in the step after it takes a
response (notes/assumptions 19). -/
def Obligations.ScriptRunsAsTransactions : Prop :=
  ∀ (s : State) (is : List Instr) (rest : List PortIn), s.PHASE = .idle →
    (∀ i ∈ is, i.wellFormed = true) → s.inputs = commandInputs s.KV is ++ rest →
    run (commandSteps s.KV is) s = .next (transactAll is { s with inputs := rest }) ∧
    (transactAll is { s with inputs := rest }).delivered.length = s.delivered.length + is.length

/-- 20_memory.md R65 (1), 43_cipher_engine.md R198: a block command uses the key of the last well-formed
LDKEY, whatever commands came between, provided none of them was one. The host is that of
notes/assumptions 19. -/
def Obligations.LatestKeyDecidesResult : Prop :=
  ∀ (s : State) (key block : Block) (dec : Bool) (between : List Instr), s.PHASE = .idle →
    (∀ i ∈ between, i.wellFormed = true ∧ i.loadsKey = false) →
    let is := Instr.ldkey 8 key ::
      (between ++ [if dec then Instr.dec 8 block else Instr.enc 8 block])
    s.inputs = commandInputs s.KV is →
    ∃ t : State, run (commandSteps s.KV is) s = .next t ∧
      t.delivered.getLast? = some ⟨0, if dec then decrypt key block else encrypt key block⟩

/-- 43_cipher_engine.md R197 at the ports: load a key, encrypt a block, decrypt the answer; the last
response is the block. The host is that of notes/assumptions 19. -/
def Obligations.RoundTripThroughThePorts : Prop :=
  ∀ (s : State) (key block : Block), s.PHASE = .idle →
    let is := [Instr.ldkey 8 key, Instr.enc 8 block, Instr.dec 8 (encrypt key block)]
    s.inputs = commandInputs s.KV is →
    ∃ t : State, run 54 s = .next t ∧
      t.delivered = s.delivered ++ [⟨0, 0⟩, ⟨0, encrypt key block⟩, ⟨0, block⟩]

/-- 10_state.md R20: the eleven registers are the complete state of the engine. What a step shows, which
event it is and the registers it leaves follow from the registers before it and this step's port
values, whatever the model's own fields hold beside them (notes/assumptions 21). A reset leaves
unspecified registers (R241), so the last clause is about every other step. -/
def Obligations.EngineIsCompleteState : Prop :=
  ∀ s t : State, s.toEngine = t.toEngine → s.now = t.now →
    s.outputs = t.outputs ∧ nextEvent s = nextEvent t ∧
    (s.now.rst = false →
      (∃ s' t' : State, step s = .next s' ∧ step t = .next t' ∧ s'.toEngine = t'.toEngine) ∨
      (∃ f : Fault, step s = .fault f ∧ step t = .fault f))
end

