-- ==== Sys2Proof/Laws/Decode.lean ====
section
/-!
SUPPORT. The fields of an encoded command (30_encoding.md R81): what the three field readers of the
decoder give on a word put together from three fields, and that a word is its three fields.
-/

namespace Sys2Proof

/-- Bit `i` of `op ‖ len ‖ data` (R81). -/
theorem getLsbD_fields (op : BitVec 2) (len : BitVec 4) (data : Block) (i : Nat) :
    (op ++ len ++ data : CmdWord).getLsbD i =
      if i < 64 then data.getLsbD i
      else if i - 64 < 4 then len.getLsbD (i - 64) else op.getLsbD (i - 64 - 4) := by
  have h : ((op ++ len) ++ data).getLsbD i =
      if i < 64 then data.getLsbD i else (op ++ len).getLsbD (i - 64) := BitVec.getLsbD_append
  have g : (op ++ len).getLsbD (i - 64) =
      if i - 64 < 4 then len.getLsbD (i - 64) else op.getLsbD (i - 64 - 4) := BitVec.getLsbD_append
  exact h.trans (by rw [g])

@[simp] theorem cmdOp_append (op : BitVec 2) (len : BitVec 4) (data : Block) :
    cmdOp (op ++ len ++ data : CmdWord) = op := by
  apply BitVec.eq_of_getLsbD_eq
  intro i hi
  rw [cmdOp, BitVec.getLsbD_extractLsb', getLsbD_fields, if_neg (by omega), if_neg (by omega),
    show 68 + i - 64 - 4 = i by omega]
  simp [hi]

@[simp] theorem extractLen_append (op : BitVec 2) (len : BitVec 4) (data : Block) :
    (op ++ len ++ data : CmdWord).extractLsb' 64 4 = len := by
  apply BitVec.eq_of_getLsbD_eq
  intro i hi
  rw [BitVec.getLsbD_extractLsb', getLsbD_fields, if_neg (by omega), if_pos (by omega),
    show 64 + i - 64 = i by omega]
  simp [hi]

@[simp] theorem cmdLen_append (op : BitVec 2) (len : BitVec 4) (data : Block) :
    cmdLen (op ++ len ++ data : CmdWord) = len.toNat := by rw [cmdLen, extractLen_append]

@[simp] theorem cmdData_append (op : BitVec 2) (len : BitVec 4) (data : Block) :
    cmdData (op ++ len ++ data : CmdWord) = data := by
  apply BitVec.eq_of_getLsbD_eq
  intro i hi
  rw [cmdData, BitVec.getLsbD_extractLsb', getLsbD_fields, if_pos (by omega)]
  simp [hi]

/-- A 70-bit word is its three fields (R81). -/
theorem append_fields (w : CmdWord) :
    (w.extractLsb' 68 2 ++ w.extractLsb' 64 4 ++ w.extractLsb' 0 64 : CmdWord) = w := by
  apply BitVec.eq_of_getLsbD_eq
  intro i hi
  rw [getLsbD_fields]
  split
  · simp [*]
  · split
    · rename_i h4
      simp [h4, show 64 + (i - 64) = i by omega]
    · simp [show 68 + (i - 64 - 4) = i by omega, show i - 64 - 4 < 2 by omega]

/-- The declared length of a decoded word fits its field (R83). -/
theorem cmdLen_le (w : CmdWord) : cmdLen w ≤ 15 := by
  have := (w.extractLsb' 64 4).isLt
  simp only [cmdLen]; omega

theorem toNat_ofNat_len {len : Nat} (h : lenFits len = true) : (BitVec.ofNat 4 len).toNat = len := by
  simp only [lenFits, decide_eq_true_eq] at h
  simp; omega

end Sys2Proof
end

