-- ==== Sys2Proof/Laws/Operands.lean ====
section
/-!
SUPPORT. What each primitive does to one bit: positions, `permute`, `rotl`, sub-vectors
(00_scope.md R10, 40_bit_conversion_and_permutation.md R115, R125), so that no later proof unfolds
them.
-/

namespace Sys2Proof.Machine

/-! ### Positions -/

/-- Two vectors with the same bit at every DES position are equal. -/
theorem eq_of_bitAt_eq {n : Nat} {v w : BitVec n}
    (h : ∀ i, 1 ≤ i → i ≤ n → bitAt v i = bitAt w i) : v = w := by
  apply BitVec.eq_of_getLsbD_eq
  intro k hk
  have := h (n - k) (by omega) (by omega)
  simpa [bitAt, show n - (n - k) = k by omega] using this

@[simp] theorem bitAt_xor {n : Nat} (v w : BitVec n) (i : Nat) :
    bitAt (v ^^^ w) i = (bitAt v i ^^ bitAt w i) := by simp [bitAt]

theorem bitAt_not {n : Nat} (v : BitVec n) (i : Nat) (h1 : 1 ≤ i) (hn : i ≤ n) :
    bitAt (~~~v) i = !bitAt v i := by
  simp [bitAt, show n - i < n by omega]

/-- `(a ‖ b)⟨i⟩` in the first part (R12). -/
theorem bitAt_append_left {n m : Nat} (a : BitVec n) (b : BitVec m) (i : Nat)
    (hn : i ≤ n) : bitAt (a ++ b) i = bitAt a i := by
  simp only [bitAt, BitVec.getLsbD_append]
  rw [if_neg (by omega), show n + m - i - m = n - i by omega]

/-- `(a ‖ b)⟨i⟩` in the second part (R12). -/
theorem bitAt_append_right {n m : Nat} (a : BitVec n) (b : BitVec m) (i : Nat) (hn : n < i)
    (_hm : i ≤ n + m) : bitAt (a ++ b) i = bitAt b (i - n) := by
  simp only [bitAt, BitVec.getLsbD_append]
  rw [if_pos (by omega), show n + m - i = m - (i - n) by omega]

/-- `v⟨first..first+len-1⟩⟨i⟩` = `v⟨first+i-1⟩` (R10). -/
theorem bitAt_positions {n : Nat} (v : BitVec n) (first len i : Nat) (hf : 1 ≤ first) (h1 : 1 ≤ i)
    (hl : i ≤ len) (hn : first + len ≤ n + 1) :
    bitAt (positions v first len) i = bitAt v (first + i - 1) := by
  simp only [bitAt, positions, BitVec.getLsbD_extractLsb']
  rw [show n + 1 - first - len + (len - i) = n - (first + i - 1) by omega]
  simp [show len - i < len by omega]

/-! ### Bit lists -/

@[simp] theorem bitsToNat_append_singleton (bs : List Bool) (b : Bool) :
    bitsToNat (bs ++ [b]) = 2 * bitsToNat bs + b.toNat := by simp [bitsToNat]

/-- Bit `k` of `int(v)` is position `n - k`, counted from 0 on the left `n - 1 - k`. -/
theorem testBit_bitsToNat (bs : List Bool) (k : Nat) :
    (bitsToNat bs).testBit k = if k < bs.length then bs.getD (bs.length - 1 - k) false else false := by
  induction bs using List.reverseRecOn generalizing k with
  | nil => simp [bitsToNat]
  | append_singleton bs b ih =>
    rw [bitsToNat_append_singleton]
    cases k with
    | zero => cases b <;> simp
    | succ k =>
      have hb : (2 * bitsToNat bs + b.toNat) / 2 = bitsToNat bs := by
        have := Bool.toNat_le b; omega
      rw [Nat.testBit_succ, hb, ih]
      simp only [List.length_append, List.length_singleton, Nat.add_lt_add_iff_right]
      split
      · rw [show bs.length + 1 - 1 - (k + 1) = bs.length - 1 - k by omega]
        simp only [List.getD_eq_getElem?_getD]
        rw [List.getElem?_append_left (by omega)]
      · rfl

@[simp] theorem length_toBits {n : Nat} (v : BitVec n) : (toBits v).length = n := by simp [toBits]

theorem getElem?_toBits {n : Nat} (v : BitVec n) (i : Nat) (h : i < n) :
    (toBits v)[i]? = some (bitAt v (i + 1)) := by simp [toBits, h]

/-! ### `permute` and `rotl` -/

/-- `permute(T, v)⟨i⟩` = `v⟨T[i]⟩` (R115). -/
theorem bitAt_permute {n m : Nat} (T : PermTable n m) (v : BitVec n) (i : Nat) (h1 : 1 ≤ i)
    (hm : i ≤ m) : bitAt (permute T v) i = bitAt v (T.entries.getD (i - 1) 0) := by
  have hl : (T.entries.map (bitAt v)).length = m := by simp [T.length_eq]
  rw [bitAt, permute, BitVec.getLsbD_ofNat, testBit_bitsToNat, hl]
  have hlt : i - 1 < T.entries.length := by rw [T.length_eq]; omega
  simp only [show m - i < m by omega, if_true, decide_true, Bool.true_and,
    show m - 1 - (m - i) = i - 1 by omega]
  simp [List.getD_eq_getElem?_getD, List.getElem?_map, List.getElem?_eq_getElem hlt]

/-- Entry `i` of a table is a position of the input (R117). -/
theorem entry_inRange {n m : Nat} (T : PermTable n m) (i : Nat) (h1 : 1 ≤ i) (hm : i ≤ m) :
    1 ≤ T.entries.getD (i - 1) 0 ∧ T.entries.getD (i - 1) 0 ≤ n := by
  have hlt : i - 1 < T.entries.length := by rw [T.length_eq]; omega
  simp only [List.getD_eq_getElem?_getD, List.getElem?_eq_getElem hlt, Option.getD_some]
  exact T.inRange _ (List.getElem_mem hlt)

/-- `rotl_n(v, s)⟨i⟩`: position `i + s` of `v`, or past the end position `i + s - n` (R125). -/
theorem bitAt_rotl {n : Nat} (v : BitVec n) (s i : Nat) (hs : s ≤ n) (h1 : 1 ≤ i) (hn : i ≤ n) :
    bitAt (rotl v s) i = if i + s ≤ n then bitAt v (i + s) else bitAt v (i + s - n) := by
  simp only [bitAt, rotl, BitVec.getLsbD_or, BitVec.getLsbD_shiftLeft, BitVec.getLsbD_ushiftRight]
  have hlt : n - i < n := by omega
  split
  · have e : n - i - s = n - (i + s) := by omega
    have hge : n ≤ n - s + (n - i) := by omega
    simp [hlt, show ¬ n - i < s by omega, e, BitVec.getLsbD_of_ge _ _ hge]
  · have e : n - s + (n - i) = n - (i + s - n) := by omega
    simp [hlt, show n - i < s by omega, e]

end Sys2Proof.Machine
end

