-- ==== Sys2Proof/Laws/PerInstr.lean ====
section
/-!
SUPPORT. Laws proved one constructor at a time (LAWS.json, family EncodedFields).
-/

namespace Sys2Proof.Laws.EncodedFields

/-- The three fields of an encoded well-formed command are its opcode, its declared length and its
operand (30_encoding.md R81, R82). -/
def Statement (i : Instr) : Prop :=
  i.wellFormed = true →
    cmdOp (encode i) = i.opcode ∧ cmdLen (encode i) = i.len ∧ cmdData (encode i) = i.data

/-- The common part: the encoder writes three fields and the readers read them back. -/
theorem of_lenFits (i : Instr) (h : lenFits i.len = true) :
    cmdOp (encode i) = i.opcode ∧ cmdLen (encode i) = i.len ∧ cmdData (encode i) = i.data :=
  ⟨cmdOp_append _ _ _, by rw [encode, cmdLen_append, toNat_ofNat_len h], cmdData_append _ _ _⟩

theorem rsvd (len : Nat) (data : Block) : Statement (.rsvd len data) := of_lenFits (.rsvd len data)
theorem ldkey (len : Nat) (key : Block) : Statement (.ldkey len key) := of_lenFits (.ldkey len key)
theorem enc (len : Nat) (block : Block) : Statement (.enc len block) := of_lenFits (.enc len block)
theorem dec (len : Nat) (block : Block) : Statement (.dec len block) := of_lenFits (.dec len block)

end Sys2Proof.Laws.EncodedFields
end

