-- ==== Sys2Proof/Laws/State.lean ====
section
/-!
SUPPORT. One lemma per field per update of the state, each true by `rfl`, so that no later proof
unfolds a record update. `toEngine` is the eleven registers together (10_state.md R20).
-/

namespace Sys2Proof.Machine

variable (s : State)

/-! ### `State.tick` -/

@[simp] theorem State.tick_toEngine : s.tick.toEngine = s.toEngine := rfl
@[simp] theorem State.tick_K : s.tick.K = s.K := rfl
@[simp] theorem State.tick_KV : s.tick.KV = s.KV := rfl
@[simp] theorem State.tick_C : s.tick.C = s.C := rfl
@[simp] theorem State.tick_D : s.tick.D = s.D := rfl
@[simp] theorem State.tick_L : s.tick.L = s.L := rfl
@[simp] theorem State.tick_R : s.tick.R = s.R := rfl
@[simp] theorem State.tick_DEC : s.tick.DEC = s.DEC := rfl
@[simp] theorem State.tick_RND : s.tick.RND = s.RND := rfl
@[simp] theorem State.tick_PHASE : s.tick.PHASE = s.PHASE := rfl
@[simp] theorem State.tick_RSP_STATUS : s.tick.RSP_STATUS = s.RSP_STATUS := rfl
@[simp] theorem State.tick_RSP_DATA : s.tick.RSP_DATA = s.RSP_DATA := rfl
@[simp] theorem State.tick_inputs : s.tick.inputs = s.inputs.tail := rfl
@[simp] theorem State.tick_delivered : s.tick.delivered = s.delivered := rfl
@[simp] theorem State.tick_resetCount : s.tick.resetCount = s.resetCount := rfl

/-! ### `State.clearKV` -/

@[simp] theorem State.clearKV_K : s.clearKV.K = s.K := rfl
@[simp] theorem State.clearKV_KV : s.clearKV.KV = false := rfl
@[simp] theorem State.clearKV_C : s.clearKV.C = s.C := rfl
@[simp] theorem State.clearKV_D : s.clearKV.D = s.D := rfl
@[simp] theorem State.clearKV_L : s.clearKV.L = s.L := rfl
@[simp] theorem State.clearKV_R : s.clearKV.R = s.R := rfl
@[simp] theorem State.clearKV_DEC : s.clearKV.DEC = s.DEC := rfl
@[simp] theorem State.clearKV_RND : s.clearKV.RND = s.RND := rfl
@[simp] theorem State.clearKV_PHASE : s.clearKV.PHASE = s.PHASE := rfl
@[simp] theorem State.clearKV_RSP_STATUS : s.clearKV.RSP_STATUS = s.RSP_STATUS := rfl
@[simp] theorem State.clearKV_RSP_DATA : s.clearKV.RSP_DATA = s.RSP_DATA := rfl
@[simp] theorem State.clearKV_inputs : s.clearKV.inputs = s.inputs := rfl
@[simp] theorem State.clearKV_delivered : s.clearKV.delivered = s.delivered := rfl
@[simp] theorem State.clearKV_resetCount : s.clearKV.resetCount = s.resetCount := rfl

/-! ### `State.setKV` -/

@[simp] theorem State.setKV_K : s.setKV.K = s.K := rfl
@[simp] theorem State.setKV_KV : s.setKV.KV = true := rfl
@[simp] theorem State.setKV_C : s.setKV.C = s.C := rfl
@[simp] theorem State.setKV_D : s.setKV.D = s.D := rfl
@[simp] theorem State.setKV_L : s.setKV.L = s.L := rfl
@[simp] theorem State.setKV_R : s.setKV.R = s.R := rfl
@[simp] theorem State.setKV_DEC : s.setKV.DEC = s.DEC := rfl
@[simp] theorem State.setKV_RND : s.setKV.RND = s.RND := rfl
@[simp] theorem State.setKV_PHASE : s.setKV.PHASE = s.PHASE := rfl
@[simp] theorem State.setKV_RSP_STATUS : s.setKV.RSP_STATUS = s.RSP_STATUS := rfl
@[simp] theorem State.setKV_RSP_DATA : s.setKV.RSP_DATA = s.RSP_DATA := rfl
@[simp] theorem State.setKV_inputs : s.setKV.inputs = s.inputs := rfl
@[simp] theorem State.setKV_delivered : s.setKV.delivered = s.delivered := rfl
@[simp] theorem State.setKV_resetCount : s.setKV.resetCount = s.resetCount := rfl

/-! ### `State.writeSubkey` -/

@[simp] theorem State.writeSubkey_K (i : Fin 16) (v : Subkey) : (s.writeSubkey i v).K = s.K.set i v := rfl
@[simp] theorem State.writeSubkey_KV (i : Fin 16) (v : Subkey) : (s.writeSubkey i v).KV = s.KV := rfl
@[simp] theorem State.writeSubkey_C (i : Fin 16) (v : Subkey) : (s.writeSubkey i v).C = s.C := rfl
@[simp] theorem State.writeSubkey_D (i : Fin 16) (v : Subkey) : (s.writeSubkey i v).D = s.D := rfl
@[simp] theorem State.writeSubkey_L (i : Fin 16) (v : Subkey) : (s.writeSubkey i v).L = s.L := rfl
@[simp] theorem State.writeSubkey_R (i : Fin 16) (v : Subkey) : (s.writeSubkey i v).R = s.R := rfl
@[simp] theorem State.writeSubkey_DEC (i : Fin 16) (v : Subkey) : (s.writeSubkey i v).DEC = s.DEC := rfl
@[simp] theorem State.writeSubkey_RND (i : Fin 16) (v : Subkey) : (s.writeSubkey i v).RND = s.RND := rfl
@[simp] theorem State.writeSubkey_PHASE (i : Fin 16) (v : Subkey) : (s.writeSubkey i v).PHASE = s.PHASE := rfl
@[simp] theorem State.writeSubkey_RSP_STATUS (i : Fin 16) (v : Subkey) : (s.writeSubkey i v).RSP_STATUS = s.RSP_STATUS := rfl
@[simp] theorem State.writeSubkey_RSP_DATA (i : Fin 16) (v : Subkey) : (s.writeSubkey i v).RSP_DATA = s.RSP_DATA := rfl
@[simp] theorem State.writeSubkey_inputs (i : Fin 16) (v : Subkey) : (s.writeSubkey i v).inputs = s.inputs := rfl
@[simp] theorem State.writeSubkey_delivered (i : Fin 16) (v : Subkey) : (s.writeSubkey i v).delivered = s.delivered := rfl
@[simp] theorem State.writeSubkey_resetCount (i : Fin 16) (v : Subkey) : (s.writeSubkey i v).resetCount = s.resetCount := rfl

/-! ### `State.respond` -/

@[simp] theorem State.respond_K (c : StatusCode) (d : Block) : (s.respond c d).K = s.K := rfl
@[simp] theorem State.respond_KV (c : StatusCode) (d : Block) : (s.respond c d).KV = s.KV := rfl
@[simp] theorem State.respond_C (c : StatusCode) (d : Block) : (s.respond c d).C = s.C := rfl
@[simp] theorem State.respond_D (c : StatusCode) (d : Block) : (s.respond c d).D = s.D := rfl
@[simp] theorem State.respond_L (c : StatusCode) (d : Block) : (s.respond c d).L = s.L := rfl
@[simp] theorem State.respond_R (c : StatusCode) (d : Block) : (s.respond c d).R = s.R := rfl
@[simp] theorem State.respond_DEC (c : StatusCode) (d : Block) : (s.respond c d).DEC = s.DEC := rfl
@[simp] theorem State.respond_RND (c : StatusCode) (d : Block) : (s.respond c d).RND = s.RND := rfl
@[simp] theorem State.respond_PHASE (c : StatusCode) (d : Block) : (s.respond c d).PHASE = .resp := rfl
@[simp] theorem State.respond_RSP_STATUS (c : StatusCode) (d : Block) : (s.respond c d).RSP_STATUS = c := rfl
@[simp] theorem State.respond_RSP_DATA (c : StatusCode) (d : Block) : (s.respond c d).RSP_DATA = d := rfl
@[simp] theorem State.respond_toEngine (c : StatusCode) (d : Block) : (s.respond c d).toEngine =
    { s.toEngine with RSP_STATUS := c, RSP_DATA := d, PHASE := .resp } := rfl
@[simp] theorem State.respond_inputs (c : StatusCode) (d : Block) : (s.respond c d).inputs = s.inputs := rfl
@[simp] theorem State.respond_delivered (c : StatusCode) (d : Block) : (s.respond c d).delivered = s.delivered := rfl
@[simp] theorem State.respond_resetCount (c : StatusCode) (d : Block) : (s.respond c d).resetCount = s.resetCount := rfl

/-! ### `raise` -/

@[simp] theorem raise_K (x : Rejection) : (raise x s).K = s.K := rfl
@[simp] theorem raise_KV (x : Rejection) : (raise x s).KV = s.KV := rfl
@[simp] theorem raise_C (x : Rejection) : (raise x s).C = s.C := rfl
@[simp] theorem raise_D (x : Rejection) : (raise x s).D = s.D := rfl
@[simp] theorem raise_L (x : Rejection) : (raise x s).L = s.L := rfl
@[simp] theorem raise_R (x : Rejection) : (raise x s).R = s.R := rfl
@[simp] theorem raise_DEC (x : Rejection) : (raise x s).DEC = s.DEC := rfl
@[simp] theorem raise_RND (x : Rejection) : (raise x s).RND = s.RND := rfl
@[simp] theorem raise_PHASE (x : Rejection) : (raise x s).PHASE = .resp := rfl
@[simp] theorem raise_RSP_STATUS (x : Rejection) : (raise x s).RSP_STATUS = x.code := rfl
@[simp] theorem raise_RSP_DATA (x : Rejection) : (raise x s).RSP_DATA = 0 := rfl
@[simp] theorem raise_inputs (x : Rejection) : (raise x s).inputs = s.inputs := rfl
@[simp] theorem raise_delivered (x : Rejection) : (raise x s).delivered = s.delivered := rfl
@[simp] theorem raise_resetCount (x : Rejection) : (raise x s).resetCount = s.resetCount := rfl

/-! ### `deliver` -/

@[simp] theorem deliver_K : (deliver s).K = s.K := rfl
@[simp] theorem deliver_KV : (deliver s).KV = s.KV := rfl
@[simp] theorem deliver_C : (deliver s).C = s.C := rfl
@[simp] theorem deliver_D : (deliver s).D = s.D := rfl
@[simp] theorem deliver_L : (deliver s).L = s.L := rfl
@[simp] theorem deliver_R : (deliver s).R = s.R := rfl
@[simp] theorem deliver_DEC : (deliver s).DEC = s.DEC := rfl
@[simp] theorem deliver_RND : (deliver s).RND = s.RND := rfl
@[simp] theorem deliver_PHASE : (deliver s).PHASE = .idle := rfl
@[simp] theorem deliver_RSP_STATUS : (deliver s).RSP_STATUS = s.RSP_STATUS := rfl
@[simp] theorem deliver_RSP_DATA : (deliver s).RSP_DATA = s.RSP_DATA := rfl
@[simp] theorem deliver_toEngine : (deliver s).toEngine = { s.toEngine with PHASE := .idle } := rfl
@[simp] theorem deliver_inputs : (deliver s).inputs = s.inputs := rfl
@[simp] theorem deliver_delivered : (deliver s).delivered = s.delivered ++ [⟨s.RSP_STATUS, s.RSP_DATA⟩] := rfl
@[simp] theorem deliver_resetCount : (deliver s).resetCount = s.resetCount := rfl

/-! ### `resetEvent`: the registers the spec fixes (R38) and the model's own fields -/

@[simp] theorem resetEvent_KV : (resetEvent s).KV = false := rfl
@[simp] theorem resetEvent_RND : (resetEvent s).RND = 0 := rfl
@[simp] theorem resetEvent_PHASE : (resetEvent s).PHASE = .idle := rfl
@[simp] theorem resetEvent_inputs : (resetEvent s).inputs = s.inputs := rfl
@[simp] theorem resetEvent_delivered : (resetEvent s).delivered = s.delivered := rfl
@[simp] theorem resetEvent_resetCount : (resetEvent s).resetCount = s.resetCount + 1 := rfl

/-! ### Ports -/

theorem State.now_eq_head (p : PortIn) (ps : List PortIn) (h : s.inputs = p :: ps) : s.now = p := by
  simp [State.now, h]

theorem State.tick_eq_tail (p : PortIn) (ps : List PortIn) (h : s.inputs = p :: ps) :
    s.tick = { s with inputs := ps } := by simp [State.tick, h]

@[simp] theorem State.now_writeSubkey (i : Fin 16) (v : Subkey) : (s.writeSubkey i v).now = s.now := rfl
@[simp] theorem PortIn.present_rst (p : PortIn) (w : CmdWord) : (p.present w).rst = false := rfl
@[simp] theorem PortIn.present_cmdValid (p : PortIn) (w : CmdWord) : (p.present w).cmdValid = true := rfl
@[simp] theorem PortIn.present_rspReady (p : PortIn) (w : CmdWord) : (p.present w).rspReady = p.rspReady := rfl

/-- The command port carries the presented word, bit for bit (30_encoding.md R81). -/
@[simp] theorem PortIn.word_present (p : PortIn) (w : CmdWord) : (p.present w).word = w :=
  append_fields w

@[simp] theorem State.reset_PHASE : State.reset.PHASE = .idle := rfl
@[simp] theorem State.reset_KV : State.reset.KV = false := rfl
@[simp] theorem State.reset_RND : State.reset.RND = 0 := rfl
@[simp] theorem State.reset_inputs : State.reset.inputs = [] := rfl
@[simp] theorem State.reset_delivered : State.reset.delivered = [] := rfl

end Sys2Proof.Machine
end

