-- ==== Sys2Proof/Laws/Step.lean ====
section
/-!
SUPPORT. Everything each shared operation and one step can do: one lemma per operation, which proofs
cite instead of unfolding it.
-/

namespace Sys2Proof.Machine

variable {s t : State}

/-! ### Accept and the four meanings -/

theorem accept_idle (f : State → State) (h : s.PHASE = .idle) : accept f s = .next (f s) := by
  simp [accept, h]

theorem accept_busy (f : State → State) (h : s.PHASE ≠ .idle) : accept f s = .next s := by
  simp [accept, h]

/-- The state after Accept of a command by an idle engine (41_key_schedule.md R150, 43_cipher_engine.md
R192, 60_exceptions.md R212). -/
def acceptOf : Instr → State → State
  | .rsvd _ _ => raise .invalidOperationFlag
  | .ldkey len key => acceptLdkey len key
  | .enc len block => acceptBlock false len block
  | .dec len block => acceptBlock true len block

/-- A command is accepted by an idle engine and has no effect on a busy one. -/
theorem exec_eq (i : Instr) (s : State) : exec i s = accept (acceptOf i) s := by cases i <;> rfl

theorem exec_idle (i : Instr) (h : s.PHASE = .idle) : exec i s = .next (acceptOf i s) := by
  rw [exec_eq, accept_idle _ h]

theorem exec_busy (i : Instr) (h : s.PHASE ≠ .idle) : exec i s = .next s := by
  rw [exec_eq, accept_busy _ h]

theorem acceptLdkey_ok (key : Block) (s : State) :
    acceptLdkey 8 key s =
      { s with C := keyC key 0, D := keyD key 0, KV := false, RND := 0, PHASE := .keygen } := rfl

theorem acceptLdkey_badSize (len : Nat) (key : Block) (s : State) (h : len ≠ 8) :
    acceptLdkey len key s = raise .invalidKeySize s := by simp [acceptLdkey, h]

theorem acceptBlock_ok (dec : Bool) (block : Block) (s : State) (h : s.KV = true) :
    acceptBlock dec 8 block s =
      { s with
        L := (initialHalves block).1, R := (initialHalves block).2, DEC := dec, RND := 0
        PHASE := .rounds } := by simp [acceptBlock, h]

theorem acceptBlock_badSize (dec : Bool) (len : Nat) (block : Block) (s : State) (h : len ≠ 8) :
    acceptBlock dec len block s = raise .invalidBlockSize s := by simp [acceptBlock, h]

theorem acceptBlock_noKey (dec : Bool) (block : Block) (s : State) (h : s.KV = false) :
    acceptBlock dec 8 block s = raise .noKey s := by simp [acceptBlock, h]

/-! ### The engine's own steps -/

/-- KeygenStep numbers 1 to 15 (R151). -/
theorem keygenStep_lt (h : s.RND.toNat < 15) :
    keygenStep s = .next
      { s with
        C := rotl s.C (shiftAmount (s.RND.toNat + 1))
        D := rotl s.D (shiftAmount (s.RND.toNat + 1))
        K := s.K.set s.RND.toNat (subkeyOf (rotl s.C (shiftAmount (s.RND.toNat + 1)))
          (rotl s.D (shiftAmount (s.RND.toNat + 1))))
        RND := BitVec.ofNat 5 (s.RND.toNat + 1) } := by
  have h16 : s.RND.toNat < 16 := by omega
  have hne : ¬ s.RND.toNat + 1 = 16 := by omega
  simp only [keygenStep, h16, dif_pos, hne, if_false]
  rfl

/-- KeygenStep number 16 (R151). -/
theorem keygenStep_last (h : s.RND.toNat = 15) :
    keygenStep s = .next
      { s with
        C := rotl s.C (shiftAmount 16), D := rotl s.D (shiftAmount 16)
        K := s.K.set 15 (subkeyOf (rotl s.C (shiftAmount 16)) (rotl s.D (shiftAmount 16)))
        RND := 16, KV := true, RSP_STATUS := statusOK, RSP_DATA := 0, PHASE := .resp } := by
  have h16 : s.RND.toNat < 16 := by omega
  simp only [keygenStep, h, if_true, State.setKV, State.respond, State.writeSubkey]
  rfl

theorem keygenStep_out (h : 16 ≤ s.RND.toNat) :
    keygenStep s = .fault .roundCounterOutOfRange := by
  simp [keygenStep, show ¬ s.RND.toNat < 16 by omega]

/-- RoundStep numbers 1 to 15 (R193). -/
theorem roundStep_lt (h : s.RND.toNat < 15) :
    roundStep s = .next
      { s with
        L := s.R
        R := s.L ^^^ roundF s.R (s.K.get (subkeyIndex s.DEC ⟨s.RND.toNat, by omega⟩))
        RND := BitVec.ofNat 5 (s.RND.toNat + 1) } := by
  have h16 : s.RND.toNat < 16 := by omega
  have hne : ¬ s.RND.toNat + 1 = 16 := by omega
  simp only [roundStep, h16, dif_pos, hne, if_false]
  rfl

/-- RoundStep number 16 (R193, R194). -/
theorem roundStep_last (h : s.RND.toNat = 15) :
    roundStep s = .next
      { s with
        L := s.R
        R := s.L ^^^ roundF s.R (s.K.get (subkeyIndex s.DEC 15))
        RND := 16, RSP_STATUS := statusOK
        RSP_DATA := permute Table.FP ((s.L ^^^ roundF s.R (s.K.get (subkeyIndex s.DEC 15))) ++ s.R)
        PHASE := .resp } := by
  have h16 : s.RND.toNat < 16 := by omega
  simp only [roundStep, h, if_true, State.respond]
  rfl

theorem roundStep_out (h : 16 ≤ s.RND.toNat) :
    roundStep s = .fault .roundCounterOutOfRange := by
  simp [roundStep, show ¬ s.RND.toNat < 16 by omega]

/-! ### One step -/

theorem step_reset (h : s.now.rst = true) : step s = .next (resetEvent s.tick) := by
  simp [step, nextEvent, h]

theorem step_idle_present (hp : s.PHASE = .idle) (hr : s.now.rst = false)
    (hv : s.now.cmdValid = true) :
    step s = .next (acceptOf (decode s.now.word) s.tick) := by
  have he : nextEvent s = .accept (decode s.now.word) := by simp [nextEvent, hr, hp, hv]
  simp only [step, he]
  exact exec_idle _ hp

theorem step_idle_wait (hp : s.PHASE = .idle) (hr : s.now.rst = false)
    (hv : s.now.cmdValid = false) : step s = .next s.tick := by
  simp [step, nextEvent, hr, hp, hv]

theorem step_keygen (hp : s.PHASE = .keygen) (hr : s.now.rst = false) :
    step s = keygenStep s.tick := by simp [step, nextEvent, hr, hp]

theorem step_rounds (hp : s.PHASE = .rounds) (hr : s.now.rst = false) :
    step s = roundStep s.tick := by simp [step, nextEvent, hr, hp]

theorem step_deliver (hp : s.PHASE = .resp) (hr : s.now.rst = false)
    (hv : s.now.rspReady = true) : step s = .next (deliver s.tick) := by
  simp [step, nextEvent, hr, hp, hv]

theorem step_resp_wait (hp : s.PHASE = .resp) (hr : s.now.rst = false)
    (hv : s.now.rspReady = false) : step s = .next s.tick := by
  simp [step, nextEvent, hr, hp, hv]

/-- Everything a step that answers a next state can do (00_scope.md R14, 60_exceptions.md R218). -/
theorem step_cases (h : step s = .next t) :
    (s.now.rst = true ∧ t = resetEvent s.tick) ∨
    (s.now.rst = false ∧
      ((s.PHASE = .idle ∧ s.now.cmdValid = true ∧ t = acceptOf (decode s.now.word) s.tick) ∨
       (s.PHASE = .idle ∧ s.now.cmdValid = false ∧ t = s.tick) ∨
       (s.PHASE = .keygen ∧ keygenStep s.tick = .next t) ∨
       (s.PHASE = .rounds ∧ roundStep s.tick = .next t) ∨
       (s.PHASE = .resp ∧ s.now.rspReady = true ∧ t = deliver s.tick) ∨
       (s.PHASE = .resp ∧ s.now.rspReady = false ∧ t = s.tick))) := by
  cases hr : s.now.rst
  · cases hp : s.PHASE
    · cases hv : s.now.cmdValid
      · rw [step_idle_wait hp hr hv] at h; cases h; simp
      · rw [step_idle_present hp hr hv] at h; cases h; simp
    · rw [step_keygen hp hr] at h; simp [h]
    · rw [step_rounds hp hr] at h; simp [h]
    · cases hv : s.now.rspReady
      · rw [step_resp_wait hp hr hv] at h; cases h; simp
      · rw [step_deliver hp hr hv] at h; cases h; simp
  · rw [step_reset hr] at h; cases h; simp

/-- A KeygenStep that answers a next state is one of numbers 1 to 16. -/
theorem keygenStep_cases (h : keygenStep s = .next t) : s.RND.toNat < 15 ∨ s.RND.toNat = 15 := by
  by_contra hc
  rw [keygenStep_out (by omega)] at h
  cases h

/-- A RoundStep that answers a next state is one of numbers 1 to 16. -/
theorem roundStep_cases (h : roundStep s = .next t) : s.RND.toNat < 15 ∨ s.RND.toNat = 15 := by
  by_contra hc
  rw [roundStep_out (by omega)] at h
  cases h

/-! ### Runs -/

@[simp] theorem run_zero : run 0 s = .next s := rfl

theorem run_succ_of_step {n : Nat} (h : step s = .next t) : run (n + 1) s = run n t := by
  have hs : core.step s = .next t := h
  simp only [run, Host.Core.run, hs]
  rfl

/-- The first step of a run that answers a next state answers one. -/
theorem step_of_run_succ {n : Nat} (h : run (n + 1) s = .next t) :
    ∃ u, step s = .next u ∧ run n u = .next t := by
  simp only [run, Host.Core.run] at h
  cases hs : core.step s with
  | next u => rw [hs] at h; exact ⟨u, hs, h⟩
  | fault r => rw [hs] at h; cases h
  | refused r => rw [hs] at h; cases h

/-- A run of `m` steps and then `n` is a run of `m + n`. -/
theorem run_add {m n : Nat} (h : run m s = .next t) : run (m + n) s = run n t := by
  induction m generalizing s with
  | zero => rw [run_zero] at h; cases h; rw [Nat.zero_add]
  | succ m ih =>
    obtain ⟨u, hu, hr⟩ := step_of_run_succ h
    rw [Nat.add_right_comm, run_succ_of_step hu, ih hr]

end Sys2Proof.Machine
end

