-- ==== Sys2Proof/Tests/Slice0.lean ====
section
/-!
SUPPORT. The model's own tests, and the witnesses that every hypothesis of a statement can be met.

Expected values are the spec's: 95_test_vectors.md (V1 to V29), the examples of the rules, and words
written out from 30_encoding.md R81 and R91. Nothing here was read off the model.
-/

namespace Sys2Proof.Tests

open Sys2Proof Sys2Proof.Machine

/-- A field of the next state, if there is one. -/
def after {α : Type} (o : Host.Outcome State Fault Refusal) (f : State → α) : Option α :=
  match o with
  | .next t => some (f t)
  | .fault _ => none
  | .refused _ => none

/-- An engine in a given phase with given input values to come; its other registers are those of
reset. -/
def engine (phase : Phase) (kv : Bool) (rnd : BitVec 5) (inputs : List PortIn) : State :=
  { State.reset with PHASE := phase, KV := kv, RND := rnd, inputs := inputs }

/-- The key of V1. -/
def key1 : Block := 0x133457799BBCDFF1

/-- The plaintext of V1. -/
def block1 : Block := 0x0123456789ABCDEF

/-- A keyed idle engine (V1's key). -/
def keyed (inputs : List PortIn) : State :=
  { engine .idle true 16 inputs with K := keySchedule key1 }

/-! ### WellFormed -/

/-- R81: `len` is a 4-bit field; 16 does not fit, in any of the four commands. -/
theorem test_wellFormed_refuses :
    Instr.wellFormed (.rsvd 16 0) = false ∧ Instr.wellFormed (.ldkey 16 0) = false ∧
    Instr.wellFormed (.enc 16 0) = false ∧ Instr.wellFormed (.dec 16 0) = false := by decide

/-- R83: `len` runs over 0..15, and a wrong size is a well-formed word. -/
theorem test_wellFormed_takes :
    Instr.wellFormed (.rsvd 15 0) = true ∧ Instr.wellFormed (.ldkey 0 0) = true ∧
    Instr.wellFormed (.enc 7 0) = true ∧ Instr.wellFormed (.dec 15 0) = true := by decide

/-! ### Decode: words written out field by field from R81 and R82 -/

theorem test_decode_rsvd :
    decode (0b00#2 ++ 0b0011#4 ++ 0xFFFFFFFFFFFFFFFF#64) = .rsvd 3 0xFFFFFFFFFFFFFFFF := by decide

theorem test_decode_ldkey :
    decode (0b01#2 ++ 0b1000#4 ++ 0x133457799BBCDFF1#64) = .ldkey 8 0x133457799BBCDFF1 := by decide

theorem test_decode_enc :
    decode (0b10#2 ++ 0b0111#4 ++ 0x0123456789ABCDEF#64) = .enc 7 0x0123456789ABCDEF := by decide

theorem test_decode_dec :
    decode (0b11#2 ++ 0b1001#4 ++ 0x85E813540F0AB405#64) = .dec 9 0x85E813540F0AB405 := by decide

/-- R91: "LDKEY/7 ... begins 0x17, ENC/9 ... begins 0x29, RSVD ... begins 0x08". -/
theorem test_encode_leading_digits :
    (encode (.ldkey 7 0)).toNat / 2 ^ 64 = 0x17 ∧ (encode (.enc 9 0)).toNat / 2 ^ 64 = 0x29 ∧
    (encode (.rsvd 8 0)).toNat / 2 ^ 64 = 0x08 := by decide

/-- The written form is nine bytes; a shorter one and a wider number are rejected by name. -/
theorem test_decode_rejects :
    decodeBytes [0x18, 0x13] = .error .truncated ∧ decodeNat (2 ^ 70) = .error .bitsAboveWord ∧
    decodeTableWord 72 (2 ^ 71) = none := by decide

theorem test_decodeTableWord :
    decodeTableWord 72 0x280123456789ABCDEF = some (.enc 8 0x0123456789ABCDEF) := by decide

/-- R85: the status stands on bits 66 to 64 of the response word, the data below it. -/
theorem test_response_word :
    (⟨0b100, 0x85E813540F0AB405⟩ : Response).word = 0x485E813540F0AB405#67 := by decide

/-! ### Primitives -/

/-- V5. -/
theorem test_bytesToBits :
    bytesToBits [0x13, 0x34] = [false, false, false, true, false, false, true, true,
      false, false, true, true, false, true, false, false] ∧
    bitsToBytes [true, false, false, false, false, false, false, false] = .ok [0x80] ∧
    bitsToBytes (List.replicate 12 true) = .error .sizeMismatch := by decide

/-- R115: `permute([2,1,2], ⟨a,b⟩) = ⟨b,a,b⟩`, and the failure on a short input. -/
theorem test_applyPermutation :
    applyPermutation [2, 1, 2] [true, false] = .ok [false, true, false] ∧
    applyPermutation [2, 1, 2] [true] = .error .sizeMismatch := by decide

/-- R118, R119 and V6. -/
theorem test_permute_IP_FP :
    permute Table.IP 0x0123456789ABCDEF#64 = 0xCC00CCFFF0AAF0AA ∧
    permute Table.IP 0xFFFFFFFF00000000#64 = 0x0F0F0F0F0F0F0F0F ∧
    permute Table.FP 0x0A4CD99543423234#64 = 0x85E813540F0AB405 ∧
    permute Table.FP 0xFFFFFFFF00000000#64 = 0x5555555555555555 := by decide +kernel

/-- R120, R121 and V6. -/
theorem test_permute_E_P :
    permute Table.E 0x80000001#32 = 0xC00000000003 ∧ permute Table.E 0x0000FFFF#32 = 0x8000017FFFFE ∧
    permute Table.P 0x5C82B597#32 = 0x234AA9BB ∧ permute Table.P 0x0000FFFF#32 = 0x3B362CA9 := by
  decide +kernel

/-- R122, R123 and V6. -/
theorem test_permute_PC1_PC2 :
    permute Table.PC1 0x133457799BBCDFF1#64 = 0xF0CCAAF556678F ∧
    permute Table.PC1 0x0101010101010101#64 = 0 ∧
    permute Table.PC2 0xE19955FAACCF1E#56 = 0x1B02EFFC7072 ∧
    permute Table.PC2 0x0000000FFFFFFF#56 = 0x000000FFFFFF := by decide +kernel

/-- V7. -/
theorem test_rotl :
    rotl 0x8000001#28 1 = 0x0000003 ∧ rotl 0xC000001#28 2 = 0x0000007 ∧
    rotl 0x0000001#28 27 = 0x8000000 ∧ rotl 0xF0CCAAF#28 28 = 0xF0CCAAF := by decide

/-- V8: `v` = 1 is row 1 column 0, `v` = 32 is row 2 column 0, `v` = 2 is row 0 column 1. -/
theorem test_sbox :
    sbox 1 0b000001 = 3 ∧ sbox 1 0b100000 = 0 ∧ sbox 1 0b000010 = 1 ∧ sbox 0 0b100110 = 8 ∧
    sbox 7 0b111111 = 11 ∧ sboxFlat 4 21 = 15 ∧ sboxFlat 6 42 = 3 := by decide

/-- V9, last row and the two one-bit rows. -/
theorem test_roundF :
    roundF 0x12345678 0x9ABCDEF01234 = 0x7AFDB75C ∧ roundF 0x80000000 0 = 0xD0585B9E ∧
    roundF 0 0x000000000001 = 0xD0D8DB9C := by decide +kernel

/-- V2, rows 2, 9 and 16. -/
theorem test_keySchedule :
    (keySchedule key1).get 1 = 0x79AED9DBC9E5 ∧ (keySchedule key1).get 8 = 0xE0DBEBEDE781 ∧
    (keySchedule key1).get 15 = 0xCB3D8B0E17F5 := by decide +kernel

/-- V3 and V4: the halves after rounds 9 and 16, forward and reverse. -/
theorem test_roundHalves :
    roundHalves (keySchedule key1) false block1 9 = (0xD5694B90, 0x247CC67A) ∧
    roundHalves (keySchedule key1) true 0x85E813540F0AB405 16 = (0xF0AAF0AA, 0xCC00CCFF) := by
  decide +kernel

/-- V16 and V14: DEC is not ENC, and V1's complement. -/
theorem test_desBlock :
    decrypt key1 block1 = 0xEE0F7C12E0B09338 ∧
    encrypt 0xECCBA8866443200E 0xFEDCBA9876543210 = 0x7A17ECABF0F54BFA := by decide +kernel

/-- V17 with R92: a short block is zero-padded on the right, and a whole ECB script is one LDKEY and one
command a block. -/
theorem test_host_side :
    padBlock [0x41, 0x42, 0x43] = 0x4142430000000000 ∧
    ecbScript false key1 [1, 2, 3, 4, 5, 6, 7, 8, 0x41, 0x42, 0x43] =
      [.command (.ldkey 8 key1), .command (.enc 8 0x0102030405060708),
       .command (.enc 8 0x4142430000000000)] ∧
    keyFileLine (List.replicate 20 0) = .command (.ldkey 15 0) := by decide +kernel

/-! ### One step -/

/-- R212: RSVD with `len` = 3 reports `InvalidOperationFlag`. -/
theorem test_rsvd :
    after (exec (.rsvd 3 0xFFFFFFFFFFFFFFFF) (engine .idle false 0 []))
      (fun t => (t.PHASE, t.RSP_STATUS, t.RSP_DATA, t.KV)) = some (.resp, 3, 0, false) := by decide

/-- R150's example, from an engine that has a key. -/
theorem test_ldkey :
    after (exec (.ldkey 8 key1) (keyed []))
      (fun t => (t.C, t.D, t.KV, t.RND, t.PHASE)) =
      some (0xF0CCAAF, 0x556678F, false, 0, .keygen) := by decide +kernel

/-- V20: LDKEY with `len` = 7 is rejected and keeps the old key valid. -/
theorem test_ldkey_badSize :
    after (exec (.ldkey 7 key1) (keyed [])) (fun t => (t.RSP_STATUS, t.KV, t.PHASE)) =
      some (1, true, .resp) := by decide +kernel

/-- R181's example. -/
theorem test_enc :
    after (exec (.enc 8 block1) (keyed [])) (fun t => (t.L, t.R, t.DEC, t.RND, t.PHASE)) =
      some (0xCC00CCFF, 0xF0AAF0AA, false, 0, .rounds) := by decide +kernel

/-- R217: ENC with `len` = 7 and no key reports `InvalidBlockSize`, not `NoKey`. -/
theorem test_enc_badSize_first :
    after (exec (.enc 7 block1) (engine .idle false 0 [])) (fun t => (t.RSP_STATUS, t.PHASE)) =
      some (2, .resp) := by decide

/-- V4, row 0. -/
theorem test_dec :
    after (exec (.dec 8 0x85E813540F0AB405) (keyed [])) (fun t => (t.L, t.R, t.DEC, t.PHASE)) =
      some (0x0A4CD995, 0x43423234, true, .rounds) := by decide +kernel

/-- R213: DEC with `len` = 8 and no key. -/
theorem test_dec_noKey :
    after (exec (.dec 8 block1) (engine .idle false 0 [])) (fun t => (t.RSP_STATUS, t.RSP_DATA)) =
      some (4, 0) := by decide

/-- R151's example: the first KeygenStep of V2. -/
theorem test_keygenStep :
    after (step { engine .keygen false 0 [] with C := 0xF0CCAAF, D := 0x556678F })
      (fun t => (t.C, t.D, t.K.get 0, t.RND, t.KV)) =
      some (0xE19955F, 0xAACCF1E, 0x1B02EFFC7072, 1, false) := by decide +kernel

/-- V2, rows 15 and 16: the last KeygenStep. -/
theorem test_keygenStep_last :
    after (step { engine .keygen false 15 [] with C := 0xF866557, D := 0xAAB33C7 })
      (fun t => ((t.C, t.D, t.K.get 15), t.RND, t.KV, t.RSP_STATUS, t.PHASE)) =
      some ((0xF0CCAAF, 0x556678F, 0xCB3D8B0E17F5), 16, true, 0, .resp) := by decide +kernel

/-- R193's example: the first RoundStep of V3. -/
theorem test_roundStep :
    after (step { keyed [] with PHASE := .rounds, RND := 0, DEC := false, L := 0xCC00CCFF, R := 0xF0AAF0AA })
      (fun t => (t.L, t.R, t.RND, t.PHASE)) = some (0xF0AAF0AA, 0xEF4A6544, 1, .rounds) := by
  decide +kernel

/-- V3, rows 15 and 16: the last RoundStep and the result. -/
theorem test_roundStep_last :
    after (step { keyed [] with PHASE := .rounds, RND := 15, DEC := false, L := 0xC28C960D, R := 0x43423234 })
      (fun t => (t.L, t.R, t.RSP_DATA, t.PHASE)) =
      some (0x43423234, 0x0A4CD995, 0x85E813540F0AB405, .resp) := by decide +kernel

/-- V4, row 1: a decryption round uses `K[15]` first. -/
theorem test_roundStep_dec :
    after (step { keyed [] with PHASE := .rounds, RND := 0, DEC := true, L := 0x0A4CD995, R := 0x43423234 })
      (fun t => (t.L, t.R)) = some (0x43423234, 0xC28C960D) := by decide +kernel

/-- R219: Deliver. -/
theorem test_deliver :
    after (step { engine .resp true 16 [taking] with RSP_STATUS := 0, RSP_DATA := 0x85E813540F0AB405 })
      (fun t => (t.PHASE, t.delivered)) = some (.idle, [⟨0, 0x85E813540F0AB405⟩]) := by decide

/-- R241: reset in the middle of a transaction, with a command presented in the same step. -/
theorem test_reset :
    after (step (engine .rounds true 7 [{ presenting (.rsvd 0 0) with rst := true }]))
      (fun t => (t.PHASE, t.RND, t.KV, t.delivered)) = some (.idle, 0, false, []) := by decide

/-- R32: a command presented to a busy engine is not taken. -/
theorem test_busy :
    after (step (engine .resp true 16 [presenting (.ldkey 8 0)])) (fun t => (t.PHASE, t.KV)) =
      some (.resp, true) := by decide

/-- The host's fetch form: the presented word runs as the first command after reset. -/
theorem test_withFetchWord :
    after (step (State.reset.withFetchWord 72 0x18133457799BBCDFF1)) (fun t => (t.PHASE, t.C, t.D)) =
      some (.keygen, 0xF0CCAAF, 0x556678F) := by decide +kernel

/-- R151, R193 give no step with `RND` above 15: the model's own fault (unreachable). -/
theorem test_roundCounterOutOfRange :
    step (engine .keygen false 16 []) = .fault .roundCounterOutOfRange ∧
    step (engine .rounds true 16 []) = .fault .roundCounterOutOfRange := ⟨rfl, rfl⟩

/-! ### Witnesses: for each statement with hypotheses, a state and operands that meet them all -/

theorem witness_DecodeOfEncode :
    (Instr.ldkey 15 key1).wellFormed = true ∧ (Instr.rsvd 0 0).wellFormed = true := by decide

theorem witness_DecodeFollowsOpcodeTable :
    0x0FFFFFFFFFFFFFFFFF#70 &&& 0x300000000000000000#70 = 0x000000000000000000#70 ∧
    0x1FFFFFFFFFFFFFFFFF#70 &&& 0x300000000000000000#70 = 0x100000000000000000#70 ∧
    0x2FFFFFFFFFFFFFFFFF#70 &&& 0x300000000000000000#70 = 0x200000000000000000#70 ∧
    0x3FFFFFFFFFFFFFFFFF#70 &&& 0x300000000000000000#70 = 0x300000000000000000#70 := by decide

theorem witness_WrittenFormReadBack :
    (Instr.dec 15 block1).wellFormed = true ∧ (List.replicate 8 (0 : Byte)).length < 9 ∧
    2 ^ 70 ≤ 2 ^ 70 := by decide

/-- An idle engine that is presented `i`. -/
def offered (i : Instr) : State := keyed [presenting i]

theorem witness_StepRunsPresentedCommand :
    (Instr.enc 8 block1).wellFormed = true ∧ (offered (.enc 8 block1)).PHASE = .idle ∧
    (offered (.enc 8 block1)).now.rst = false ∧ (offered (.enc 8 block1)).now.cmdValid = true ∧
    (offered (.enc 8 block1)).now.word = encode (.enc 8 block1) := by decide

theorem witness_OutputsFollowPhase : (engine .resp true 16 []).PHASE = .resp := rfl

theorem witness_HandshakeRule :
    ((offered (.dec 8 0)).now.rst = false ∧ (offered (.dec 8 0)).now.cmdValid = true ∧
      (offered (.dec 8 0)).outputs.cmdReady = true) ∧
    ((engine .resp true 16 [taking]).now.rst = false ∧
      (engine .resp true 16 [taking]).now.rspReady = true ∧
      (engine .resp true 16 [taking]).outputs.rspValid = true) ∧
    ((engine .rounds true 3 []).outputs.cmdReady = false ∧
      (presenting (.ldkey 8 key1)).rst = PortIn.quiet.rst ∧
      (presenting (.ldkey 8 key1)).rspReady = PortIn.quiet.rspReady) := by decide

theorem witness_WaitingChangesNothing :
    ((engine .idle true 16 [taking]).PHASE = .idle ∧ (engine .idle true 16 [taking]).now.rst = false ∧
      (engine .idle true 16 [taking]).now.cmdValid = false) ∧
    ((engine .resp true 16 [presenting (.rsvd 0 0)]).PHASE = .resp ∧
      (engine .resp true 16 [presenting (.rsvd 0 0)]).now.rst = false ∧
      (engine .resp true 16 [presenting (.rsvd 0 0)]).now.rspReady = false) := by decide

theorem witness_ResetEventFromAnyState : (engine .rounds true 7 [resetting]).now.rst = true := rfl

theorem witness_PortByteOrder : (1 ≤ 1 ∧ 1 ≤ 64) ∧ (1 ≤ 64 ∧ 64 ≤ 64) := by decide

theorem witness_ByteBitRoundTrip :
    (List.replicate 64 true).length % 8 = 0 ∧ ([] : List Bool).length % 8 = 0 ∧
    (List.replicate 7 true).length % 8 ≠ 0 := by decide

theorem witness_PermuteReadsTable :
    (1 ≤ 1 ∧ 1 ≤ 48) ∧ (1 ≤ 48 ∧ 48 ≤ 48) ∧ (∃ t ∈ [2, 1, 2], [true].length < t) := by decide

theorem witness_RotationLaws :
    (28 ≤ 28 ∧ 1 ≤ 28 ∧ 28 ≤ 28) ∧ (0 ≤ 28 ∧ 1 ≤ 1 ∧ 1 ≤ 28) := by decide

theorem witness_LdkeyAccept : (keyed []).PHASE = .idle ∧ 7 ≠ 8 ∧ 9 ≠ 8 ∧ 8 = 8 := by decide

theorem witness_KeygenStepRule :
    ((engine .keygen false 0 []).RND.toNat < 16 ∧ (engine .keygen false 0 []).PHASE = .keygen ∧
      (engine .keygen false 0 []).now.rst = false) ∧
    ((engine .keygen false 15 []).RND.toNat < 16 ∧ (engine .keygen false 15 []).PHASE = .keygen ∧
      (engine .keygen false 15 []).now.rst = false) ∧
    ((engine .keygen false 0 [taking]).RND = 0 ∧
      ∀ p ∈ (engine .keygen false 0 [taking]).inputs.take 16, p.rst = false) := by decide

/-- Input values of a whole transaction of command `i` with `n` steps between Accept and Deliver, and a
second command after it. -/
def session (i : Instr) (n : Nat) : List PortIn :=
  presenting i :: (List.replicate n (presenting (.rsvd 0 0)) ++ taking :: [presenting (.enc 8 block1)])

theorem witness_LdkeyTransaction :
    ((keyed (session (.ldkey 8 key1) 16)).PHASE = .idle ∧
      (keyed (session (.ldkey 8 key1) 16)).inputs = presenting (.ldkey 8 key1) ::
        (List.replicate 16 (presenting (.rsvd 0 0)) ++ taking :: [presenting (.enc 8 block1)]) ∧
      (List.replicate 16 (presenting (.rsvd 0 0))).length = 16 ∧
      ∀ p ∈ List.replicate 16 (presenting (.rsvd 0 0)), p.rst = false) ∧
    ((keyed (session (.ldkey 9 key1) 0)).PHASE = .idle ∧
      (keyed (session (.ldkey 9 key1) 0)).inputs =
        presenting (.ldkey 9 key1) :: ([] ++ taking :: [presenting (.enc 8 block1)])) ∧
    (∀ len ∈ [8, 9], len ≤ 15 ∧ (presenting (.ldkey len key1)).rst = false ∧
      (presenting (.ldkey len key1)).cmdValid = true ∧
      (presenting (.ldkey len key1)).word = encode (.ldkey len key1)) ∧
    taking.rst = false ∧ taking.rspReady = true := by
  refine ⟨⟨rfl, rfl, rfl, ?_⟩, ⟨rfl, rfl⟩, ?_, rfl, rfl⟩
  · intro p hp; rw [List.eq_of_mem_replicate hp]; rfl
  · decide

theorem witness_CumulativeSubkeyBits :
    (1 ≤ 1 ∧ 1 ≤ 48 ∧ Table.PC2.entries.getD 0 0 ≤ 28) ∧ (1 ≤ 8 ∧ 8 ≤ 48 ∧ Table.PC2.entries.getD 7 0 = 28) ∧
    (1 ≤ 47 ∧ 47 ≤ 48 ∧ Table.PC2.entries.getD 46 0 = 29) := by decide

theorem witness_ParityBitsIgnored :
    (∀ p, 1 ≤ p → p ≤ 64 → p % 8 ≠ 0 → bitAt (0 : Block) p = bitAt 0x0101010101010101#64 p) ∧
    (keyed []).PHASE = .idle := by
  refine ⟨fun p h1 h2 h3 => ?_, rfl⟩
  have h : ∀ q : Fin 65, q.val % 8 ≠ 0 → bitAt (0 : Block) q = bitAt 0x0101010101010101#64 q := by decide
  exact h ⟨p, by omega⟩ h3

theorem witness_ConstantKeyCorners :
    (keyC 0x1F1F1F1F0E0E0E0E 0 = 0 ∧ keyD 0x1F1F1F1F0E0E0E0E 0 = 0xFFFFFFF) ∧
    (keyC 0xE0E0E0E0F1F1F1F1 0 = 0xFFFFFFF ∧ keyD 0xE0E0E0E0F1F1F1F1 0 = 0) := by decide +kernel

theorem witness_SboxLookupsInRange : (0 < 8 ∧ 0 < 4) ∧ (7 < 8 ∧ 3 < 4) := by decide

theorem witness_FlatSboxAgrees : 0 < 8 ∧ 7 < 8 := by decide

theorem witness_BlockAccept :
    ((keyed []).PHASE = .idle ∧ 9 ≠ 8) ∧
    ((engine .idle false 0 []).PHASE = .idle ∧ (engine .idle false 0 []).KV = false) ∧
    ((keyed []).PHASE = .idle ∧ (keyed []).KV = true) := by decide

/-- V3 under way: `n` rounds of the encryption of V1 done. -/
def inRounds (n : Nat) (inputs : List PortIn) : State :=
  { keyed inputs with
    PHASE := .rounds, RND := BitVec.ofNat 5 n, DEC := false
    L := (roundHalves (keySchedule key1) false block1 n).1
    R := (roundHalves (keySchedule key1) false block1 n).2 }

theorem witness_RoundStepRule :
    ((inRounds 0 [taking]).RND = 0 ∧ (inRounds 0 [taking]).PHASE = .rounds ∧
      (∀ p ∈ (inRounds 0 [taking]).inputs.take 16, p.rst = false)) ∧
    ((inRounds 15 []).RND.toNat < 16 ∧ (inRounds 15 []).PHASE = .rounds ∧
      (inRounds 15 []).now.rst = false ∧
      ((inRounds 15 []).L, (inRounds 15 []).R) =
        roundHalves (inRounds 15 []).K (inRounds 15 []).DEC block1 (inRounds 15 []).RND.toNat) :=
  ⟨⟨rfl, rfl, by decide⟩, by decide, rfl, rfl, rfl⟩

theorem witness_BlockTransaction :
    ((keyed (session (.dec 7 block1) 0)).PHASE = .idle ∧ 7 ≠ 8 ∧ 7 ≤ 15 ∧
      (keyed (session (.dec 7 block1) 0)).inputs =
        presenting (.dec 7 block1) :: ([] ++ taking :: [presenting (.enc 8 block1)]) ∧
      (presenting (.dec 7 block1)).word = encode (.dec 7 block1)) ∧
    ((engine .idle false 0 (session (.enc 8 block1) 0)).PHASE = .idle ∧
      (engine .idle false 0 (session (.enc 8 block1) 0)).KV = false ∧
      (engine .idle false 0 (session (.enc 8 block1) 0)).inputs =
        presenting (.enc 8 block1) :: ([] ++ taking :: [presenting (.enc 8 block1)]) ∧
      (presenting (.enc 8 block1)).word = encode (.enc 8 block1)) ∧
    ((keyed (session (.enc 8 block1) 16)).PHASE = .idle ∧
      (keyed (session (.enc 8 block1) 16)).KV = true ∧
      (keyed (session (.enc 8 block1) 16)).inputs = presenting (.enc 8 block1) ::
        (List.replicate 16 (presenting (.rsvd 0 0)) ++ taking :: [presenting (.enc 8 block1)]) ∧
      (List.replicate 16 (presenting (.rsvd 0 0))).length = 16 ∧
      ∀ p ∈ List.replicate 16 (presenting (.rsvd 0 0)), p.rst = false) ∧
    ((presenting (.enc 8 block1)).rst = false ∧ (presenting (.enc 8 block1)).cmdValid = true ∧
      (presenting (.dec 7 block1)).rst = false ∧ (presenting (.dec 7 block1)).cmdValid = true ∧
      taking.rst = false ∧ taking.rspReady = true) := by
  refine ⟨⟨rfl, by decide, by decide, rfl, by decide⟩, ⟨rfl, rfl, rfl, by decide⟩,
    ⟨rfl, rfl, rfl, rfl, ?_⟩, by decide⟩
  intro p hp; rw [List.eq_of_mem_replicate hp]; rfl

theorem witness_EqualSubkeysSelfInverse :
    ∀ i j : Fin 16, (Vector.replicate 16 (0 : Subkey) : RoundKeySet).get i =
      (Vector.replicate 16 (0 : Subkey) : RoundKeySet).get j := by decide

theorem witness_ReservedOpcodeRejected : (engine .idle false 0 []).PHASE = .idle := rfl

theorem witness_RejectionPriority :
    (keyed []).PHASE = .idle ∧
    (Instr.rsvd 3 0).opcode = 0b00 ∧
    ((Instr.ldkey 15 0).opcode = 0b01 ∧ (Instr.ldkey 15 0).len ≠ 8) ∧
    ((Instr.enc 0 0).opcode = 0b10 ∧ (Instr.enc 0 0).len ≠ 8) ∧
    ((Instr.dec 8 0).opcode = 0b11 ∧ (Instr.dec 8 0).len = 8 ∧ (engine .idle false 0 []).KV = false ∧
      (engine .idle false 0 []).PHASE = .idle) ∧
    ((Instr.ldkey 8 0).opcode = 0b01 ∧ (Instr.ldkey 8 0).len = 8) ∧
    ((Instr.enc 8 0).opcode = 0b10 ∧ (Instr.enc 8 0).len = 8 ∧ (keyed []).KV = true) := by decide

theorem witness_RejectedCommandLeavesNoTrace :
    (keyed (session (.enc 7 block1) 0)).PHASE = .idle ∧
    (keyed (session (.enc 7 block1) 0)).inputs =
      presenting (.enc 7 block1) :: taking :: [presenting (.enc 8 block1)] ∧
    (Instr.enc 7 block1).wellFormed = true ∧ (presenting (.enc 7 block1)).rst = false ∧
    (presenting (.enc 7 block1)).cmdValid = true ∧
    (presenting (.enc 7 block1)).word = encode (.enc 7 block1) ∧
    taking.rst = false ∧ taking.rspReady = true ∧
    accepted (.enc 7 block1) (keyed (session (.enc 7 block1) 0)).KV = false :=
  ⟨rfl, rfl, rfl, rfl, rfl, by decide, rfl, rfl, rfl⟩

theorem witness_RejectedOperandIgnored : 9 ≠ 8 ∧ (1 ≤ 1 ∧ 1 ≤ 64) ∧ (1 ≤ 64 ∧ 64 ≤ 64) := by decide

theorem witness_DeliverReturnsToIdle :
    (engine .resp false 0 [taking]).PHASE = .resp ∧ (engine .resp false 0 [taking]).now.rst = false ∧
    (engine .resp false 0 [taking]).now.rspReady = true := by decide

/-- LDKEY of V1 just accepted. -/
def inKeygen (inputs : List PortIn) : State :=
  { engine .keygen false 0 inputs with C := keyC key1 0, D := keyD key1 0 }

theorem inKeygen_inv (inputs : List PortIn) : Invariant (inKeygen inputs) where
  rnd_le := by show (0 : BitVec 5).toNat ≤ 16; decide
  keyed := fun h => nomatch h
  keygen := fun _ => ⟨rfl, by show (0 : BitVec 5).toNat ≤ 15; decide, key1, rfl, rfl,
    fun j hj => absurd hj (Nat.not_lt_zero _)⟩
  rounds := fun h => nomatch h
  resp := fun h => nomatch h

theorem inRounds_inv (inputs : List PortIn) : Invariant (inRounds 15 inputs) where
  rnd_le := by show (15 : BitVec 5).toNat ≤ 16; decide
  keyed := fun _ => ⟨key1, rfl⟩
  keygen := fun h => nomatch h
  rounds := fun _ => ⟨rfl, by show (15 : BitVec 5).toNat ≤ 15; decide, block1, rfl⟩
  resp := fun h => nomatch h

theorem witness_InvariantKept :
    (Invariant (inKeygen []) ∧ ∃ t, step (inKeygen []) = .next t) ∧
    (Invariant (inRounds 15 []) ∧ ∃ t, step (inRounds 15 []) = .next t) :=
  ⟨⟨inKeygen_inv [], _, rfl⟩, inRounds_inv [], _, rfl⟩

theorem witness_InvariantNeverStops : Invariant (inKeygen [taking]) := inKeygen_inv [taking]

/-- A step from each phase, and a reset, for the statements about every step. -/
theorem witness_PhaseTransitions :
    (∃ t, step (engine .rounds true 3 [resetting]) = .next t) ∧
    (∃ t, step (offered (.ldkey 8 0)) = .next t) ∧
    (∃ t, step (offered (.enc 8 0)) = .next t) ∧
    (∃ t, step (offered (.rsvd 8 0)) = .next t) ∧
    (∃ t, step (inKeygen []) = .next t) ∧
    (∃ t, step (inRounds 15 []) = .next t) ∧
    (∃ t, step (engine .resp true 16 [taking]) = .next t) :=
  ⟨⟨_, rfl⟩, ⟨_, rfl⟩, ⟨_, rfl⟩, ⟨_, rfl⟩, ⟨_, rfl⟩, ⟨_, rfl⟩, ⟨_, rfl⟩⟩

theorem witness_RoundCounterRule :
    ((∃ t, step (offered (.enc 8 0)) = .next t) ∧ (offered (.enc 8 0)).now.rst = false ∧
      (offered (.enc 8 0)).PHASE = .idle ∧ (offered (.enc 8 0)).now.cmdValid = true ∧
      accepted (decode (offered (.enc 8 0)).now.word) (offered (.enc 8 0)).KV = true) ∧
    ((∃ t, step (offered (.enc 9 0)) = .next t) ∧ (offered (.enc 9 0)).PHASE = .idle ∧
      accepted (decode (offered (.enc 9 0)).now.word) (offered (.enc 9 0)).KV = false) ∧
    ((∃ t, step (inKeygen []) = .next t) ∧ (inKeygen []).PHASE = .keygen ∧
      (inKeygen []).now.rst = false) ∧
    ((∃ t, step (engine .resp true 16 []) = .next t) ∧ (engine .resp true 16 []).PHASE = .resp) :=
  ⟨⟨⟨_, rfl⟩, rfl, rfl, rfl, by decide⟩, ⟨⟨_, rfl⟩, rfl, by decide⟩, ⟨⟨_, rfl⟩, rfl, rfl⟩,
    ⟨_, rfl⟩, rfl⟩

theorem witness_KeyValidRule :
    (∃ t, step (inKeygen []) = .next t) ∧ (∃ t, step (offered (.ldkey 8 0)) = .next t) ∧
    ((engine .idle false 0 []).PHASE = .idle ∧ (engine .idle false 0 []).KV = false) :=
  ⟨⟨_, rfl⟩, ⟨_, rfl⟩, rfl, rfl⟩

theorem witness_RegistersChangeOnlyByTheirWriters :
    (∃ t, step (inRounds 15 []) = .next t) ∧ (∃ t, step (offered (.dec 8 0)) = .next t) :=
  ⟨⟨_, rfl⟩, _, rfl⟩

theorem witness_ResponsesDeliveredOnce :
    (∃ t, step (engine .resp true 16 [taking]) = .next t) ∧
    (engine .resp true 16 [taking]).now.rst = false ∧ (engine .resp true 16 [taking]).PHASE = .resp ∧
    (engine .resp true 16 [taking]).now.rspReady = true := ⟨⟨_, rfl⟩, rfl, rfl, rfl⟩

theorem witness_CommandInFlightEnds :
    ((inKeygen []).PHASE = .keygen ∧ (inKeygen []).RND.toNat ≤ 15 ∧
      ∀ p ∈ (inKeygen []).inputs.take (16 - (inKeygen []).RND.toNat), p.rst = false) ∧
    ((inRounds 15 [taking]).PHASE = .rounds ∧ (inRounds 15 [taking]).RND.toNat ≤ 15 ∧
      ∀ p ∈ (inRounds 15 [taking]).inputs.take (16 - (inRounds 15 [taking]).RND.toNat), p.rst = false) :=
  ⟨⟨rfl, by decide, by decide⟩, rfl, by decide, by decide⟩

/-- Two states that differ in every hidden register. -/
theorem witness_HiddenRegistersUnobservable :
    let s := { keyed (session (.enc 8 block1) 16) with C := 0, D := 0, L := 0, R := 0, DEC := false }
    let t := { s with C := 1, D := 1, L := 1, R := 1, DEC := true, RND := 0 }
    (s.PHASE = .idle ∨ s.PHASE = .resp) ∧ s.PHASE = t.PHASE ∧ s.K = t.K ∧ s.KV = t.KV ∧
    s.RSP_STATUS = t.RSP_STATUS ∧ s.RSP_DATA = t.RSP_DATA ∧ s.inputs = t.inputs ∧
    s.delivered = t.delivered ∧ s ≠ t := by
  refine ⟨.inl rfl, rfl, rfl, rfl, rfl, rfl, rfl, rfl, fun h => ?_⟩
  have h' : false = true := congrArg (fun x : State => x.DEC) h
  cases h'

theorem witness_ResetContentsNeverSeen :
    let s := engine .idle false 0 (session (.ldkey 8 key1) 16)
    let t := { s with K := Vector.replicate 16 0, C := 0, D := 0, RSP_DATA := 0 }
    s.PHASE = .idle ∧ s.RND = 0 ∧ s.KV = false ∧ t.PHASE = .idle ∧ t.RND = 0 ∧ t.KV = false ∧
    s.inputs = t.inputs ∧ s.delivered = t.delivered := ⟨rfl, rfl, rfl, rfl, rfl, rfl, rfl, rfl⟩

/-- A session of four commands, one of them rejected. -/
def fourCommands : List Instr := [.enc 8 block1, .ldkey 8 key1, .rsvd 0 0, .dec 8 block1]

theorem witness_ScriptRunsAsTransactions :
    let s := engine .idle false 0 (commandInputs false fourCommands ++ [resetting])
    s.PHASE = .idle ∧ (∀ i ∈ fourCommands, i.wellFormed = true) ∧
    s.inputs = commandInputs s.KV fourCommands ++ [resetting] := ⟨rfl, by decide, rfl⟩

theorem witness_LatestKeyDecidesResult :
    let is := Instr.ldkey 8 key1 :: ([.ldkey 7 0, .enc 8 0] ++ [if true then Instr.dec 8 block1 else Instr.enc 8 block1])
    let s := engine .idle false 0 (commandInputs false is)
    s.PHASE = .idle ∧ (∀ i ∈ [Instr.ldkey 7 0, .enc 8 0], i.wellFormed = true ∧ i.loadsKey = false) ∧
    s.inputs = commandInputs s.KV is := ⟨rfl, by decide, rfl⟩

theorem witness_RoundTripThroughThePorts :
    let is := [Instr.ldkey 8 key1, Instr.enc 8 block1, Instr.dec 8 (encrypt key1 block1)]
    let s := engine .idle false 0 (commandInputs false is)
    s.PHASE = .idle ∧ s.inputs = commandInputs s.KV is := ⟨rfl, rfl⟩

/-- Two states with the same engine and the same port values now, apart in every field of the model's
own. -/
theorem witness_EngineIsCompleteState :
    let s := offered (.enc 8 block1)
    let t := { s with inputs := [presenting (.enc 8 block1), resetting], delivered := [⟨0, 0⟩], resetCount := 1 }
    s.toEngine = t.toEngine ∧ s.now = t.now ∧ s.now.rst = false ∧ (∃ s', step s = .next s') ∧ s ≠ t := by
  refine ⟨rfl, rfl, rfl, ⟨_, rfl⟩, fun h => ?_⟩
  have h' : (0 : Nat) = 1 := congrArg State.resetCount h
  cases h'

end Sys2Proof.Tests
end

section
/-!
PROOFS. The decoder on an encoded command (30_encoding.md R81, R88), the sixteen rotations of a key
half (41_key_schedule.md R146), and the subkey store while it is filled (R151).
-/

namespace Sys2Proof

/-- R88 undoes R81 for a command whose length fits its field. -/
theorem decode_encode (i : Instr) (h : i.wellFormed = true) : decode (encode i) = i := by
  have hlen : lenFits i.len = true := by cases i <;> exact h
  obtain ⟨hop, hl, hd⟩ := Laws.EncodedFields.of_lenFits i hlen
  cases i <;> simp [decode, hop, hl, hd, Instr.opcode, Instr.len, Instr.data]

end Sys2Proof

namespace Sys2Proof.Machine

/-! ### Rotation -/

@[simp] theorem rotl_zero {n : Nat} (v : BitVec n) : rotl v 0 = v :=
  eq_of_bitAt_eq fun i h1 hn => by rw [bitAt_rotl v 0 i (Nat.zero_le n) h1 hn]; simp [hn]

@[simp] theorem rotl_width {n : Nat} (v : BitVec n) : rotl v n = v :=
  eq_of_bitAt_eq fun i h1 hn => by
    rw [bitAt_rotl v n i le_rfl h1 hn, if_neg (by omega), Nat.add_sub_cancel]

/-- Rotations add up, as long as their sum is no more than a full turn (R125). -/
theorem rotl_rotl {n : Nat} (v : BitVec n) (a b : Nat) (h : a + b ≤ n) :
    rotl (rotl v a) b = rotl v (a + b) := by
  refine eq_of_bitAt_eq fun i h1 hn => ?_
  rw [bitAt_rotl _ b i (by omega) h1 hn, bitAt_rotl v (a + b) i h h1 hn]
  split
  · rw [bitAt_rotl v a _ (by omega) (by omega) (by omega), Nat.add_right_comm, Nat.add_assoc]
  · rw [bitAt_rotl v a _ (by omega) (by omega) (by omega), if_pos (by omega), if_neg (by omega)]
    congr 1; omega

/-- The sum of the first `j` entries of `SHIFT` (R143). -/
def shiftTotal (j : Nat) : Nat := (Table.SHIFT.take j).sum

theorem shiftTotal_succ :
    ∀ j < 16, shiftTotal (j + 1) = shiftTotal j + shiftAmount (j + 1) := by decide

theorem shiftTotal_le : ∀ j ≤ 16, shiftTotal j ≤ 28 := by decide

/-- A half that every round rotates by its `SHIFT` is, after `j` rounds, the first one rotated by
their sum (R144, R149). -/
theorem rotated_eq {half : Nat → KeyHalf}
    (h : ∀ j, half (j + 1) = rotl (half j) (shiftAmount (j + 1))) :
    ∀ j ≤ 16, half j = rotl (half 0) (shiftTotal j)
  | 0, _ => (rotl_zero _).symm
  | j + 1, hj => by
    have hs := shiftTotal_succ j hj
    rw [h, rotated_eq h j (by omega), rotl_rotl _ _ _ (hs ▸ shiftTotal_le _ hj), hs]

/-- Sixteen rounds are a full turn (R146). -/
theorem rotated_closure {half : Nat → KeyHalf}
    (h : ∀ j, half (j + 1) = rotl (half j) (shiftAmount (j + 1))) : half 16 = half 0 :=
  (rotated_eq h 16 le_rfl).trans (rotl_width _)

theorem keyC_closure (key : Block) : keyC key 16 = keyC key 0 := rotated_closure fun _ => rfl

theorem keyD_closure (key : Block) : keyD key 16 = keyD key 0 := rotated_closure fun _ => rfl

/-! ### The subkey store while LDKEY fills it -/

/-- The subkey store `ks` after `n` KeygenSteps with `key` (R151). -/
def storeAfter (key : Block) (ks : RoundKeySet) (n : Nat) : RoundKeySet :=
  Vector.ofFn fun i : Fin 16 => if i.val < n then (keySchedule key).get i else ks.get i

@[simp] theorem storeAfter_zero (key : Block) (ks : RoundKeySet) : storeAfter key ks 0 = ks := by
  ext i hi
  simp [storeAfter, Vector.get]

@[simp] theorem storeAfter_all (key : Block) (ks : RoundKeySet) :
    storeAfter key ks 16 = keySchedule key := by
  ext i hi
  simp [storeAfter, Vector.get]

/-- KeygenStep number `n + 1` writes `K_{n+1}` at index `n`. -/
theorem storeAfter_succ (key : Block) (ks : RoundKeySet) (n : Nat) (h : n < 16) :
    storeAfter key ks (n + 1) =
      (storeAfter key ks n).set n (subkeyOf (keyC key (n + 1)) (keyD key (n + 1))) h := by
  refine Vector.ext fun i hi => ?_
  rw [Vector.getElem_set]
  split
  case isTrue heq => subst heq; simp [storeAfter, keySchedule, Vector.get]; rfl
  case isFalse hne =>
    have hlt : i < n + 1 ↔ i < n := by omega
    simp only [storeAfter, Vector.getElem_ofFn, hlt]

end Sys2Proof.Machine
end

section
/-!
PROOFS. The engine's own steps in a row (70_reset_and_hazards.md R260): sixteen KeygenSteps
(41_key_schedule.md R151) and sixteen RoundSteps (43_cipher_engine.md R193), whatever the ports show
meanwhile, as long as it is no reset.
-/

namespace Sys2Proof.Machine

variable {s t : State}

/-- States each of which steps to the next one are a run. -/
theorem run_chain {n : Nat} {f : Nat → State} (h : ∀ k < n, step (f k) = .next (f (k + 1))) :
    run n (f 0) = .next (f n) := by
  induction n with
  | zero => rfl
  | succ n ih =>
    rw [run_add (ih fun k hk => h k (by omega)), run_succ_of_step (h n (by omega)), run_zero]

/-- Fifteen steps along a chain of states and one that leaves it are a run of sixteen. -/
theorem run_sixteen {f : Nat → State} (h : ∀ k < 15, step (f k) = .next (f (k + 1)))
    (hlast : step (f 15) = .next t) : run 16 (f 0) = .next t := by
  rw [run_add (m := 15) (n := 1) (run_chain h), run_succ_of_step hlast, run_zero]

/-- No reset in the first `m` input values: none in the step after `k < m` of them are used up. -/
theorem headD_drop_rst {ps : List PortIn} {m k : Nat} (h : ∀ p ∈ ps.take m, p.rst = false)
    (hk : k < m) : ((ps.drop k).headD .quiet).rst = false := by
  rw [List.headD_eq_head?_getD, List.head?_drop]
  cases hp : ps[k]? with
  | none => rfl
  | some p => exact h p (List.mem_of_getElem? (List.getElem?_take_of_lt hk ▸ hp))

/-- KeygenStep number `n + 1`, not the last, by its number. -/
theorem keygenStep_number {n : Nat} (hr : s.RND.toNat = n) (hn : n < 15) :
    keygenStep s = .next
      { s with
        C := rotl s.C (shiftAmount (n + 1)), D := rotl s.D (shiftAmount (n + 1))
        K := s.K.set n (subkeyOf (rotl s.C (shiftAmount (n + 1))) (rotl s.D (shiftAmount (n + 1))))
        RND := BitVec.ofNat 5 (n + 1) } := by
  subst hr; exact keygenStep_lt hn

/-- RoundStep number `n + 1`, not the last, by its number. -/
theorem roundStep_number {n : Nat} (hr : s.RND.toNat = n) (hn : n < 15) :
    roundStep s = .next
      { s with
        L := s.R, R := s.L ^^^ roundF s.R (s.K.get (subkeyIndex s.DEC ⟨n, by omega⟩))
        RND := BitVec.ofNat 5 (n + 1) } := by
  subst hr; exact roundStep_lt hn

/-- `int(RND)` of a count of steps done (R29). -/
theorem toNat_ofNat_rnd {n : Nat} (h : n ≤ 16) : (BitVec.ofNat 5 n).toNat = n := by
  rw [BitVec.toNat_ofNat]; omega

/-! ### KEYGEN -/

/-- `s` in phase KEYGEN, `n` KeygenSteps of an LDKEY with `key` done. -/
def keygenAt (key : Block) (s : State) (n : Nat) : State :=
  { s with
    K := storeAfter key s.K n, KV := false, C := keyC key n, D := keyD key n
    RND := BitVec.ofNat 5 n, PHASE := .keygen, inputs := s.inputs.drop n }

/-- `s` when an LDKEY with `key` shows its response (R151). -/
def keygenDone (key : Block) (s : State) : State :=
  { s with
    K := keySchedule key, KV := true, C := keyC key 0, D := keyD key 0, RND := 16
    RSP_STATUS := statusOK, RSP_DATA := 0, PHASE := .resp, inputs := s.inputs.drop 16 }

theorem acceptLdkey_eq_keygenAt (key : Block) (s : State) :
    acceptLdkey 8 key s = keygenAt key s 0 := by
  simp [acceptLdkey_ok, keygenAt]

theorem step_keygenAt_lt (key : Block) {n : Nat} (h : ∀ p ∈ s.inputs.take 16, p.rst = false)
    (hn : n < 15) : step (keygenAt key s n) = .next (keygenAt key s (n + 1)) := by
  have hnow : (keygenAt key s n).now.rst = false := headD_drop_rst h (by omega)
  have hr : (keygenAt key s n).tick.RND.toNat = n := toNat_ofNat_rnd (by omega)
  rw [step_keygen rfl hnow, keygenStep_number hr hn]
  simp [keygenAt, storeAfter_succ key s.K n (by omega), keyC, keyD, State.tick]

theorem step_keygenAt_last (key : Block) (h : ∀ p ∈ s.inputs.take 16, p.rst = false) :
    step (keygenAt key s 15) = .next (keygenDone key s) := by
  have hnow : (keygenAt key s 15).now.rst = false := headD_drop_rst h (by omega)
  rw [step_keygen rfl hnow, keygenStep_last rfl, keygenDone, ← keyC_closure, ← keyD_closure,
    ← storeAfter_all key s.K, storeAfter_succ key s.K 15 (by omega)]
  simp [keygenAt, keyC, keyD, State.tick]

/-- Sixteen KeygenSteps after Accept of a well-formed LDKEY. -/
theorem run_acceptLdkey (key : Block) (h : ∀ p ∈ s.inputs.take 16, p.rst = false) :
    run 16 (acceptLdkey 8 key s) = .next (keygenDone key s) := by
  rw [acceptLdkey_eq_keygenAt]
  exact run_sixteen (f := keygenAt key s) (fun _ hk => step_keygenAt_lt key h hk)
    (step_keygenAt_last key h)

/-! ### ROUNDS -/

/-- `s` in phase ROUNDS, `n` RoundSteps of a block command on `block` done. -/
def roundsAt (dec : Bool) (block : Block) (s : State) (n : Nat) : State :=
  { s with
    L := (roundHalves s.K dec block n).1, R := (roundHalves s.K dec block n).2, DEC := dec
    RND := BitVec.ofNat 5 n, PHASE := .rounds, inputs := s.inputs.drop n }

/-- `s` when a block command on `block` shows its response (R194). -/
def roundsDone (dec : Bool) (block : Block) (s : State) : State :=
  { s with
    L := (roundHalves s.K dec block 16).1, R := (roundHalves s.K dec block 16).2, DEC := dec
    RND := 16, RSP_STATUS := statusOK, RSP_DATA := desBlock s.K block dec, PHASE := .resp
    inputs := s.inputs.drop 16 }

theorem acceptBlock_eq_roundsAt (dec : Bool) (block : Block) (hkv : s.KV = true) :
    acceptBlock dec 8 block s = roundsAt dec block s 0 := by
  simp [acceptBlock_ok dec block s hkv, roundsAt, roundHalves]

/-- Round `n + 1` from (`L_n`, `R_n`) (R182). -/
theorem roundHalves_succ (ks : RoundKeySet) (dec : Bool) (block : Block) {n : Nat} (h : n < 16) :
    roundHalves ks dec block (n + 1) =
      ((roundHalves ks dec block n).2, (roundHalves ks dec block n).1 ^^^
        roundF (roundHalves ks dec block n).2 (ks.get (subkeyIndex dec ⟨n, h⟩))) := by
  rw [roundHalves, dif_pos h, feistelRound]

theorem step_roundsAt_lt (dec : Bool) (block : Block) {n : Nat}
    (h : ∀ p ∈ s.inputs.take 16, p.rst = false) (hn : n < 15) :
    step (roundsAt dec block s n) = .next (roundsAt dec block s (n + 1)) := by
  have hnow : (roundsAt dec block s n).now.rst = false := headD_drop_rst h (by omega)
  have hr : (roundsAt dec block s n).tick.RND.toNat = n := toNat_ofNat_rnd (by omega)
  rw [step_rounds rfl hnow, roundStep_number hr hn]
  simp [roundsAt, roundHalves_succ s.K dec block (show n < 16 by omega), State.tick]

theorem step_roundsAt_last (dec : Bool) (block : Block)
    (h : ∀ p ∈ s.inputs.take 16, p.rst = false) :
    step (roundsAt dec block s 15) = .next (roundsDone dec block s) := by
  have hnow : (roundsAt dec block s 15).now.rst = false := headD_drop_rst h (by omega)
  rw [step_rounds rfl hnow, roundStep_last rfl]
  simp [roundsAt, roundsDone, desBlock, finalBlock,
    roundHalves_succ s.K dec block (show 15 < 16 by omega), State.tick]

/-- Sixteen RoundSteps after Accept of a block command that is not rejected. -/
theorem run_acceptBlock (dec : Bool) (block : Block) (hkv : s.KV = true)
    (h : ∀ p ∈ s.inputs.take 16, p.rst = false) :
    run 16 (acceptBlock dec 8 block s) = .next (roundsDone dec block s) := by
  rw [acceptBlock_eq_roundsAt dec block hkv]
  exact run_sixteen (f := roundsAt dec block s) (fun _ hk => step_roundsAt_lt dec block h hk)
    (step_roundsAt_last dec block h)

end Sys2Proof.Machine
end

section
/-!
PROOFS. One whole transaction at the step level is the atomic transaction (41_key_schedule.md R153,
43_cipher_engine.md R196, 92_eei_decisions.md D1), and a list of commands is the list of them (R65).
-/

namespace Sys2Proof.Machine

variable {s : State}

/-! ### ENC and DEC together -/

/-- The block command of direction `dec`. -/
def blockCommand (dec : Bool) (len : Nat) (block : Block) : Instr :=
  if dec then .dec len block else .enc len block

section
variable (dec : Bool) (len : Nat) (block : Block)

theorem acceptOf_blockCommand :
    acceptOf (blockCommand dec len block) = acceptBlock dec len block := by
  cases dec <;> rfl

theorem accepted_blockCommand (kv : Bool) :
    accepted (blockCommand dec len block) kv = (len = 8 && kv) := by cases dec <;> rfl

theorem responseTo_blockCommand (kv : Bool) (ks : RoundKeySet) :
    responseTo (blockCommand dec len block) kv ks =
      if len ≠ 8 then ⟨Rejection.invalidBlockSize.code, 0⟩
      else if kv = false then ⟨Rejection.noKey.code, 0⟩
      else ⟨statusOK, desBlock ks block dec⟩ := by cases dec <;> rfl

theorem workOf_blockCommand (s : State) :
    workOf (blockCommand dec len block) s =
      { s with
        L := (roundHalves s.K dec block 16).1, R := (roundHalves s.K dec block 16).2
        DEC := dec, RND := 16 } := by cases dec <;> rfl

end

/-- The commands Accept does not reject (R217). -/
theorem accepted_cases {i : Instr} {kv : Bool} (h : accepted i kv = true) :
    (∃ key, i = .ldkey 8 key) ∨ (kv = true ∧ ∃ dec block, i = blockCommand dec 8 block) := by
  cases i with
  | rsvd len data => cases h
  | ldkey len key => left; simpa [accepted] using h
  | enc len block =>
    obtain ⟨rfl, hkv⟩ : len = 8 ∧ kv = true := by simpa [accepted] using h
    exact .inr ⟨hkv, false, block, rfl⟩
  | dec len block =>
    obtain ⟨rfl, hkv⟩ : len = 8 ∧ kv = true := by simpa [accepted] using h
    exact .inr ⟨hkv, true, block, rfl⟩

/-! ### The atomic transaction -/

/-- `s` with command `i` done and its response shown, not yet taken. -/
def answered (i : Instr) (s : State) : State :=
  (if accepted i s.KV then workOf i s else s).respond (responseTo i s.KV s.K).status
    (responseTo i s.KV s.K).data

theorem transact_eq_deliver (i : Instr) (s : State) : transact i s = deliver (answered i s) := rfl

/-- A command leaves the input values that come after it alone. -/
theorem answered_inputs (i : Instr) (s : State) (ps : List PortIn) :
    answered i { s with inputs := ps } = { answered i s with inputs := ps } := by
  have hwork : workOf i { s with inputs := ps } = { workOf i s with inputs := ps } := by
    cases i <;> rfl
  simp only [answered, hwork]
  split <;> rfl

theorem transact_inputs (i : Instr) (s : State) (ps : List PortIn) :
    transact i { s with inputs := ps } = { transact i s with inputs := ps } := by
  rw [transact_eq_deliver, answered_inputs, transact_eq_deliver]; rfl

/-- A transaction delivers its command's response (R65). -/
theorem transact_delivered (i : Instr) (s : State) :
    (transact i s).delivered = s.delivered ++ [responseTo i s.KV s.K] := by
  have hwork : (workOf i s).delivered = s.delivered := by cases i <;> simp only [workOf]
  simp [transact, apply_ite State.delivered, hwork]

/-- `KV` after a transaction (R26): the host can tell it from the command alone. -/
theorem transact_KV (i : Instr) (s : State) :
    (transact i s).KV = (ScriptLine.command i).keyValidAfter s.KV := by
  cases i with
  | rsvd len data => rfl
  | ldkey len key =>
    by_cases hl : len = 8 <;> simp [transact, accepted, workOf, ScriptLine.keyValidAfter, hl]
  | enc len block => simp only [transact, deliver_KV, State.respond_KV]; split <;> rfl
  | dec len block => simp only [transact, deliver_KV, State.respond_KV]; split <;> rfl

/-! ### The step level -/

theorem acceptBlock_rejected (dec : Bool) (len : Nat) (block : Block)
    (h : accepted (blockCommand dec len block) s.KV = false) :
    acceptBlock dec len block s = answered (blockCommand dec len block) s := by
  rw [answered, h, responseTo_blockCommand]
  by_cases hl : len = 8
  · have hkv : s.KV = false := by simpa [accepted_blockCommand, hl] using h
    subst hl
    rw [acceptBlock_noKey dec block s hkv]
    simp [hkv, raise]
  · rw [acceptBlock_badSize dec len block s hl]
    simp [hl, raise]

/-- A rejected command is answered by its Accept (R216). -/
theorem acceptOf_rejected {i : Instr} (h : accepted i s.KV = false) :
    acceptOf i s = answered i s := by
  cases i with
  | rsvd len data => rfl
  | ldkey len key =>
    have hl : len ≠ 8 := by simpa [accepted] using h
    simp [acceptOf, acceptLdkey_badSize len key s hl, answered, responseTo, h, hl, raise]
  | enc len block => exact acceptBlock_rejected false len block h
  | dec len block => exact acceptBlock_rejected true len block h

theorem keygenDone_eq_answered (key : Block) (s : State) :
    keygenDone key s = answered (.ldkey 8 key) { s with inputs := s.inputs.drop 16 } := by
  simp [answered, accepted, responseTo, workOf, keygenDone, State.respond]

theorem roundsDone_eq_answered (dec : Bool) (block : Block) (hkv : s.KV = true) :
    roundsDone dec block s =
      answered (blockCommand dec 8 block) { s with inputs := s.inputs.drop 16 } := by
  simp [answered, accepted_blockCommand, responseTo_blockCommand, workOf_blockCommand, hkv,
    roundsDone, State.respond]

/-- From Accept to the response: the engine's own steps are those R260 counts. -/
theorem run_ownSteps (i : Instr) (s : State)
    (h : ∀ p ∈ s.inputs.take (ownSteps i s.KV), p.rst = false) :
    run (ownSteps i s.KV) (acceptOf i s) =
      .next (answered i { s with inputs := s.inputs.drop (ownSteps i s.KV) }) := by
  cases ha : accepted i s.KV with
  | false => simp [ownSteps, ha, acceptOf_rejected ha]
  | true =>
    have hn : ownSteps i s.KV = 16 := by simp [ownSteps, ha]
    rw [hn] at h ⊢
    obtain ⟨key, rfl⟩ | ⟨hkv, dec, block, rfl⟩ := accepted_cases ha
    · rw [acceptOf, run_acceptLdkey key h, keygenDone_eq_answered]
    · rw [acceptOf_blockCommand, run_acceptBlock dec block hkv h,
        roundsDone_eq_answered dec block hkv]

/-- The host takes the response to command `i` in the step in which it drives `last`. -/
theorem step_answered (i : Instr) (s : State) {last : PortIn} {rest : List PortIn}
    (hlast : last.rst = false) (hready : last.rspReady = true) :
    step (answered i { s with inputs := last :: rest }) =
      .next (transact i { s with inputs := rest }) := by
  have hnow : (answered i { s with inputs := last :: rest }).now = last := by
    rw [answered_inputs]; rfl
  rw [step_deliver rfl (by rw [hnow, hlast]) (by rw [hnow, hready]), transact_eq_deliver,
    answered_inputs, answered_inputs i s rest]
  rfl

/-- One command, from the word on the command port to the response the host takes, is one atomic
transaction, whatever the host drives on the ports in between, as long as it is no reset. -/
theorem run_transaction {i : Instr} {first last : PortIn} {waits rest : List PortIn}
    (hwf : i.wellFormed = true) (hp : s.PHASE = .idle)
    (hin : s.inputs = first :: (waits ++ last :: rest)) (hlen : waits.length = ownSteps i s.KV)
    (hfirst : first.rst = false) (hvalid : first.cmdValid = true) (hword : first.word = encode i)
    (hwaits : ∀ p ∈ waits, p.rst = false) (hlast : last.rst = false)
    (hready : last.rspReady = true) :
    run (transactionSteps i s.KV) s = .next (transact i { s with inputs := rest }) := by
  have hnow : s.now = first := State.now_eq_head s _ _ hin
  have haccept : step s = .next (acceptOf i { s with inputs := waits ++ last :: rest }) := by
    rw [step_idle_present hp (hnow ▸ hfirst) (hnow ▸ hvalid), hnow, hword, decode_encode i hwf,
      State.tick_eq_tail s _ _ hin]
  have hown : run (ownSteps i s.KV) (acceptOf i { s with inputs := waits ++ last :: rest }) =
      .next (answered i { s with inputs := last :: rest }) := by
    have h := run_ownSteps i { s with inputs := waits ++ last :: rest }
    simp only [← hlen, List.take_left, List.drop_left] at h ⊢
    exact h hwaits
  rw [transactionSteps, run_succ_of_step haccept, run_add hown,
    run_succ_of_step (step_answered i s hlast hready), run_zero]

/-! ### Lists of commands -/

theorem commandInputs_cons (kv : Bool) (i : Instr) (is : List Instr) :
    commandInputs kv (i :: is) =
      presenting i :: (List.replicate (ownSteps i kv) .quiet ++
        taking :: commandInputs ((ScriptLine.command i).keyValidAfter kv) is) := by
  simp [commandInputs, scriptInputs, ScriptLine.inputs]

theorem commandSteps_cons (kv : Bool) (i : Instr) (is : List Instr) :
    commandSteps kv (i :: is) =
      transactionSteps i kv + commandSteps ((ScriptLine.command i).keyValidAfter kv) is := by
  simp [commandSteps, commandInputs_cons, transactionSteps]; omega

/-- One command of a script is one atomic transaction. -/
theorem run_presented {i : Instr} {rest : List PortIn} (hwf : i.wellFormed = true)
    (hp : s.PHASE = .idle)
    (hin : s.inputs = presenting i :: (List.replicate (ownSteps i s.KV) .quiet ++ taking :: rest)) :
    run (transactionSteps i s.KV) s = .next (transact i { s with inputs := rest }) :=
  run_transaction hwf hp hin List.length_replicate rfl rfl (PortIn.word_present _ _)
    (fun _ hp => List.eq_of_mem_replicate hp ▸ rfl) rfl rfl

/-- A list of commands at the step level is the list of its atomic transactions. -/
theorem run_commands (is : List Instr) (rest : List PortIn) (hwf : ∀ i ∈ is, i.wellFormed = true)
    (hp : s.PHASE = .idle) (hin : s.inputs = commandInputs s.KV is ++ rest) :
    run (commandSteps s.KV is) s = .next (transactAll is { s with inputs := rest }) := by
  induction is generalizing s with
  | nil => cases s; cases hin; rfl
  | cons i is ih =>
    rw [commandInputs_cons, List.cons_append, List.append_assoc, List.cons_append] at hin
    have hi := run_presented (hwf i List.mem_cons_self) hp hin
    have hrest := ih (s := transact i { s with
        inputs := commandInputs ((ScriptLine.command i).keyValidAfter s.KV) is ++ rest })
      (fun j hj => hwf j (List.mem_cons_of_mem i hj)) rfl (by rw [transact_inputs, transact_KV])
    rw [transact_KV, ← transact_inputs] at hrest
    rw [commandSteps_cons, run_add hi]
    exact hrest

theorem transactAll_length_delivered (is : List Instr) (s : State) :
    (transactAll is s).delivered.length = s.delivered.length + is.length := by
  induction is generalizing s with
  | nil => rfl
  | cons i is ih =>
    rw [transactAll, List.foldl_cons, ← transactAll, ih, transact_delivered]
    simp; omega

/-- Settles O53, by induction on the list of commands: each one is an atomic transaction and leaves
the engine idle, with the `KV` the rest of the script counts on. -/
theorem scriptRunsAsTransactions : Obligations.ScriptRunsAsTransactions :=
  fun _ is rest hp hwf hin => ⟨run_commands is rest hwf hp hin, transactAll_length_delivered is _⟩

end Sys2Proof.Machine
end

section
/-!
PROOFS. What each operation does to the single registers: Accept of a command, KeygenStep and
RoundStep (10_state.md R20, R26, R28, R29), and which event a step is (60_exceptions.md R218).
-/

namespace Sys2Proof

/-- Every decoded command has an encoding: its length is a 4-bit field (30_encoding.md R83). -/
theorem decode_wellFormed (w : CmdWord) : (decode w).wellFormed = true := by
  have hlen : lenFits (cmdLen w) = true := by simpa [lenFits] using cmdLen_le w
  simp only [decode]
  split <;> exact hlen

end Sys2Proof

namespace Sys2Proof.Machine

variable {s t : State}

/-! ### Accept -/

/-- Accept of a rejected command writes its response and nothing else (R216). -/
theorem acceptOf_respond {i : Instr} (h : accepted i s.KV = false) :
    acceptOf i s =
      s.respond (responseTo i s.KV s.K).status (responseTo i s.KV s.K).data := by
  rw [acceptOf_rejected h, answered, h]
  rfl

/-- Everything Accept can do: reject with a response, start the key schedule, or start the rounds. -/
theorem acceptOf_cases (i : Instr) (s : State) :
    (accepted i s.KV = false ∧ acceptOf i s =
      s.respond (responseTo i s.KV s.K).status (responseTo i s.KV s.K).data) ∨
    (∃ key, i = .ldkey 8 key ∧ acceptOf i s =
      { s with C := keyC key 0, D := keyD key 0, KV := false, RND := 0, PHASE := .keygen }) ∨
    (∃ dec block, s.KV = true ∧ i = blockCommand dec 8 block ∧ acceptOf i s =
      { s with
        L := (initialHalves block).1, R := (initialHalves block).2, DEC := dec, RND := 0
        PHASE := .rounds }) := by
  cases ha : accepted i s.KV with
  | false => exact .inl ⟨rfl, acceptOf_respond ha⟩
  | true =>
    obtain ⟨key, rfl⟩ | ⟨hkv, dec, block, rfl⟩ := accepted_cases ha
    · exact .inr (.inl ⟨key, rfl, acceptLdkey_ok key s⟩)
    · refine .inr (.inr ⟨dec, block, hkv, rfl, ?_⟩)
      rw [acceptOf_blockCommand, acceptBlock_ok dec block s hkv]

@[simp] theorem loadsKey_blockCommand (dec : Bool) (len : Nat) (block : Block) :
    (blockCommand dec len block).loadsKey = false := by cases dec <;> rfl

/-- A rejected LDKEY has a wrong length, so no rejected command loads a key (R25, R217). -/
theorem loadsKey_of_rejected {i : Instr} {kv : Bool} (h : accepted i kv = false) :
    i.loadsKey = false := by
  cases i with
  | ldkey len key => exact h
  | rsvd len data => rfl
  | enc len block => rfl
  | dec len block => rfl

/-- The phase after Accept (R28). -/
theorem acceptOf_PHASE (i : Instr) (s : State) :
    (acceptOf i s).PHASE =
      if accepted i s.KV = false then .resp else if i.loadsKey then .keygen else .rounds := by
  obtain ⟨ha, h⟩ | ⟨key, rfl, h⟩ | ⟨dec, block, hkv, rfl, h⟩ := acceptOf_cases i s
  · simp [h, ha]
  · simp [h, accepted, Instr.loadsKey]
  · simp [h, accepted_blockCommand, hkv]

/-- Accept writes 0 into `RND`, unless it rejects (R29). -/
theorem acceptOf_RND (i : Instr) (s : State) :
    (acceptOf i s).RND = if accepted i s.KV then 0 else s.RND := by
  obtain ⟨ha, h⟩ | ⟨key, rfl, h⟩ | ⟨dec, block, hkv, rfl, h⟩ := acceptOf_cases i s
  · simp [h, ha]
  · simp [h, accepted]
  · simp [h, accepted_blockCommand, hkv]

/-- Accept of a well-formed LDKEY clears `KV`, and no other Accept changes it (R26). -/
theorem acceptOf_KV (i : Instr) (s : State) :
    (acceptOf i s).KV = if i.loadsKey then false else s.KV := by
  obtain ⟨ha, h⟩ | ⟨key, rfl, h⟩ | ⟨dec, block, hkv, rfl, h⟩ := acceptOf_cases i s
  · simp [h, loadsKey_of_rejected ha]
  · simp [h, Instr.loadsKey]
  · simp [h]

@[simp] theorem acceptOf_delivered (i : Instr) (s : State) :
    (acceptOf i s).delivered = s.delivered := by
  obtain ⟨-, h⟩ | ⟨key, -, h⟩ | ⟨dec, block, -, -, h⟩ := acceptOf_cases i s <;> simp [h]

/-! ### The engine's own steps -/

/-- KeygenStep on the registers that count and answer (R26, R28, R29). -/
theorem keygenStep_counts (h : keygenStep s = .next t) :
    s.RND.toNat ≤ 15 ∧ t.RND.toNat = s.RND.toNat + 1 ∧
    t.PHASE = (if s.RND.toNat = 15 then .resp else s.PHASE) ∧
    t.KV = (if s.RND.toNat = 15 then true else s.KV) := by
  obtain hr | hr := keygenStep_cases h
  · rw [keygenStep_lt hr] at h
    cases h
    simp [hr.le, hr.ne, toNat_ofNat_rnd (show s.RND.toNat + 1 ≤ 16 by omega)]
  · rw [keygenStep_last hr] at h
    cases h
    simp [hr]

/-- RoundStep on the registers that count and answer (R28, R29). -/
theorem roundStep_counts (h : roundStep s = .next t) :
    s.RND.toNat ≤ 15 ∧ t.RND.toNat = s.RND.toNat + 1 ∧
    t.PHASE = (if s.RND.toNat = 15 then .resp else s.PHASE) ∧ t.KV = s.KV := by
  obtain hr | hr := roundStep_cases h
  · rw [roundStep_lt hr] at h
    cases h
    simp [hr.le, hr.ne, toNat_ofNat_rnd (show s.RND.toNat + 1 ≤ 16 by omega)]
  · rw [roundStep_last hr] at h
    cases h
    simp [hr]

/-- What KeygenStep leaves alone (R20, R151). -/
theorem keygenStep_frame (h : keygenStep s = .next t) :
    t.L = s.L ∧ t.R = s.R ∧ t.DEC = s.DEC ∧ t.delivered = s.delivered ∧
    (s.RND.toNat ≠ 15 → t.RSP_STATUS = s.RSP_STATUS ∧ t.RSP_DATA = s.RSP_DATA) ∧
    ∀ i : Fin 16, i.val ≠ s.RND.toNat → t.K.get i = s.K.get i := by
  obtain hr | hr := keygenStep_cases h
  · rw [keygenStep_lt hr] at h
    cases h
    exact ⟨rfl, rfl, rfl, rfl, fun _ => ⟨rfl, rfl⟩,
      fun i hi => Vector.getElem_set_ne (by omega) _ (Ne.symm hi)⟩
  · rw [keygenStep_last hr] at h
    cases h
    exact ⟨rfl, rfl, rfl, rfl, fun hne => absurd hr hne,
      fun i hi => Vector.getElem_set_ne (by decide) _ (by omega)⟩

/-- What RoundStep leaves alone (R20, R193). -/
theorem roundStep_frame (h : roundStep s = .next t) :
    t.K = s.K ∧ t.KV = s.KV ∧ t.C = s.C ∧ t.D = s.D ∧ t.DEC = s.DEC ∧ t.delivered = s.delivered ∧
    (s.RND.toNat ≠ 15 → t.RSP_STATUS = s.RSP_STATUS ∧ t.RSP_DATA = s.RSP_DATA) := by
  obtain hr | hr := roundStep_cases h
  · rw [roundStep_lt hr] at h
    cases h
    exact ⟨rfl, rfl, rfl, rfl, rfl, rfl, fun _ => ⟨rfl, rfl⟩⟩
  · rw [roundStep_last hr] at h
    cases h
    exact ⟨rfl, rfl, rfl, rfl, rfl, rfl, fun hne => absurd hr hne⟩

/-- With `RND` in range a KeygenStep answers a next state. -/
theorem keygenStep_answers (h : s.RND.toNat ≤ 15) : ∃ t, keygenStep s = .next t := by
  obtain hr | hr := h.lt_or_eq
  · exact ⟨_, keygenStep_lt hr⟩
  · exact ⟨_, keygenStep_last hr⟩

/-- With `RND` in range a RoundStep answers a next state. -/
theorem roundStep_answers (h : s.RND.toNat ≤ 15) : ∃ t, roundStep s = .next t := by
  obtain hr | hr := h.lt_or_eq
  · exact ⟨_, roundStep_lt hr⟩
  · exact ⟨_, roundStep_last hr⟩

/-! ### Events -/

/-- Everything a step that answers a next state can do, by its event (R14, R218). -/
theorem step_eventCases (h : step s = .next t) :
    (nextEvent s = .reset ∧ t = resetEvent s.tick) ∨
    (∃ i, nextEvent s = .accept i ∧ t = acceptOf i s.tick) ∨
    (nextEvent s = .keygenStep ∧ keygenStep s.tick = .next t) ∨
    (nextEvent s = .roundStep ∧ roundStep s.tick = .next t) ∨
    (nextEvent s = .deliver ∧ t = deliver s.tick) ∨
    (nextEvent s = .wait ∧ t = s.tick) := by
  obtain ⟨hr, ht⟩ | ⟨hr, ⟨hp, hv, ht⟩ | ⟨hp, hv, ht⟩ | ⟨hp, ht⟩ | ⟨hp, ht⟩ | ⟨hp, hv, ht⟩ |
    ⟨hp, hv, ht⟩⟩ := step_cases h
  · simp [nextEvent, hr, ht]
  · simp [nextEvent, hr, hp, hv, ht]
  · simp [nextEvent, hr, hp, hv, ht]
  · simp [nextEvent, hr, hp, ht]
  · simp [nextEvent, hr, hp, ht]
  · simp [nextEvent, hr, hp, hv, ht]
  · simp [nextEvent, hr, hp, hv, ht]

/-- A step depends on its event and on the state with this step's port values used up. -/
theorem step_congr (he : nextEvent s = nextEvent t) (ht : s.tick = t.tick) : step s = step t := by
  simp only [step, he, ht]

/-- Two engines in the same phase that see the same port values have the same event: everything
their steps can do, side by side. -/
theorem step_pair_cases (hphase : s.PHASE = t.PHASE) (hnow : s.now = t.now) :
    (s.now.rst = true ∧ step s = .next (resetEvent s.tick) ∧
      step t = .next (resetEvent t.tick)) ∨
    (s.now.rst = false ∧
      ((∃ i, step s = .next (acceptOf i s.tick) ∧ step t = .next (acceptOf i t.tick)) ∨
       (s.PHASE = .keygen ∧ step s = keygenStep s.tick ∧ step t = keygenStep t.tick) ∨
       (s.PHASE = .rounds ∧ step s = roundStep s.tick ∧ step t = roundStep t.tick) ∨
       (step s = .next (deliver s.tick) ∧ step t = .next (deliver t.tick)) ∨
       (step s = .next s.tick ∧ step t = .next t.tick))) := by
  cases hr : s.now.rst with
  | true => exact .inl ⟨rfl, step_reset hr, step_reset (hnow ▸ hr)⟩
  | false =>
    refine .inr ⟨rfl, ?_⟩
    have hrt : t.now.rst = false := hnow ▸ hr
    cases hp : s.PHASE with
    | idle =>
      have hpt : t.PHASE = .idle := hphase ▸ hp
      cases hv : s.now.cmdValid with
      | false => simp [step_idle_wait hp hr hv, step_idle_wait hpt hrt (hnow ▸ hv)]
      | true =>
        exact .inl ⟨_, step_idle_present hp hr hv, hnow ▸ step_idle_present hpt hrt (hnow ▸ hv)⟩
    | keygen => simp [step_keygen hp hr, step_keygen (hphase ▸ hp) hrt]
    | rounds => simp [step_rounds hp hr, step_rounds (hphase ▸ hp) hrt]
    | resp =>
      have hpt : t.PHASE = .resp := hphase ▸ hp
      cases hv : s.now.rspReady with
      | false => simp [step_resp_wait hp hr hv, step_resp_wait hpt hrt (hnow ▸ hv)]
      | true => simp [step_deliver hp hr hv, step_deliver hpt hrt (hnow ▸ hv)]

/-- A step stops only in KEYGEN or ROUNDS with `RND` above 15. -/
theorem step_answers (h : s.PHASE = .keygen ∨ s.PHASE = .rounds → s.RND.toNat ≤ 15) :
    ∃ t, step s = .next t := by
  obtain ⟨-, hs, -⟩ | ⟨-, ⟨_, hs, -⟩ | ⟨hp, hs, -⟩ | ⟨hp, hs, -⟩ | ⟨hs, -⟩ | ⟨hs, -⟩⟩ :=
    step_pair_cases (s := s) rfl rfl
  · exact ⟨_, hs⟩
  · exact ⟨_, hs⟩
  · rw [hs]; exact keygenStep_answers (h (.inl hp))
  · rw [hs]; exact roundStep_answers (h (.inr hp))
  · exact ⟨_, hs⟩
  · exact ⟨_, hs⟩

/-- What every step keeps holds after every run, and no run stops, if every step from where it holds
answers a next state. -/
theorem run_keeps {P : State → Prop} (hstep : ∀ u, P u → ∃ v, step u = .next v ∧ P v) (n : Nat)
    (h : P s) : ∃ t, run n s = .next t ∧ P t := by
  induction n generalizing s with
  | zero => exact ⟨s, rfl, h⟩
  | succ n ih =>
    obtain ⟨u, hu, hP⟩ := hstep s h
    rw [run_succ_of_step hu]
    exact ih hP

end Sys2Proof.Machine
end

section
/-!
PROOFS. The invariant of 10_state.md R37: the reset state meets it, every operation keeps it, and
where it holds no step stops.
-/

namespace Sys2Proof.Machine

variable {s t : State}

/-! ### The subkey store, entry by entry -/

/-- The first `n` entries of two subkey stores are the same. -/
def AgreeBelow (n : Nat) (ks ks' : RoundKeySet) : Prop :=
  ∀ j : Fin 16, j.val < n → ks.get j = ks'.get j

@[simp] theorem agreeBelow_zero (ks ks' : RoundKeySet) : AgreeBelow 0 ks ks' :=
  fun _ hj => absurd hj (Nat.not_lt_zero _)

theorem AgreeBelow.eq {ks ks' : RoundKeySet} (h : AgreeBelow 16 ks ks') : ks = ks' :=
  Vector.ext fun i hi => h ⟨i, hi⟩ hi

/-- Writing one value at entry `n` of both stores makes them agree one entry further. -/
theorem AgreeBelow.set {n : Nat} {ks ks' : RoundKeySet} (h : AgreeBelow n ks ks') (hn : n < 16)
    (k : Subkey) : AgreeBelow (n + 1) (ks.set n k) (ks'.set n k) := by
  intro j hj
  show (ks.set n k)[j.val] = (ks'.set n k)[j.val]
  by_cases he : n = j.val
  · simp [he]
  · rw [Vector.getElem_set_ne _ _ he, Vector.getElem_set_ne _ _ he]
    exact h j (by omega)

/-- Entry `n` of the key schedule is what KeygenStep number `n + 1` writes (R147, R151). -/
theorem keySchedule_set (key : Block) {n : Nat} (hn : n < 16) :
    (keySchedule key).set n (subkeyOf (keyC key (n + 1)) (keyD key (n + 1))) =
      keySchedule key := by
  refine Vector.ext fun i hi => ?_
  rw [Vector.getElem_set]
  split
  case isTrue he => subst he; simp [keySchedule]
  case isFalse => rfl

/-- KeygenStep number `n + 1` makes the store agree with the key schedule one entry further. -/
theorem AgreeBelow.keygen {key : Block} {n : Nat} {ks : RoundKeySet} (hn : n < 16)
    (h : AgreeBelow n ks (keySchedule key)) :
    AgreeBelow (n + 1) (ks.set n (subkeyOf (keyC key (n + 1)) (keyD key (n + 1))))
      (keySchedule key) := by
  have hset := h.set hn (subkeyOf (keyC key (n + 1)) (keyD key (n + 1)))
  rwa [keySchedule_set key hn] at hset

/-! ### Every operation keeps the invariant -/

/-- An idle engine meets the invariant if its counter is in range and a valid store is a key
schedule: the other clauses speak of the other phases. -/
theorem Invariant.of_idle (hp : s.PHASE = .idle) (hrnd : s.RND.toNat ≤ 16)
    (hkey : s.KV = true → ∃ key, s.K = keySchedule key) : Invariant s where
  rnd_le := hrnd
  keyed := hkey
  keygen h := by simp [hp] at h
  rounds h := by simp [hp] at h
  resp h := by simp [hp] at h

/-- The same of an engine that shows the response to a command. -/
theorem Invariant.of_resp (hp : s.PHASE = .resp) (hrnd : s.RND.toNat ≤ 16)
    (hkey : s.KV = true → ∃ key, s.K = keySchedule key) (i : Instr) (hwf : i.wellFormed = true)
    (hi : (⟨s.RSP_STATUS, s.RSP_DATA⟩ : Response) = responseTo i s.KV s.K) : Invariant s where
  rnd_le := hrnd
  keyed := hkey
  keygen h := by simp [hp] at h
  rounds h := by simp [hp] at h
  resp _ := ⟨i, hwf, hi⟩

/-- The invariant speaks of the registers alone. -/
theorem Invariant.tick (h : Invariant s) : Invariant s.tick :=
  ⟨h.rnd_le, h.keyed, h.keygen, h.rounds, h.resp⟩

theorem Invariant.deliver (h : Invariant s) : Invariant (deliver s) :=
  .of_idle rfl h.rnd_le h.keyed

theorem invariant_resetEvent (s : State) : Invariant (resetEvent s) :=
  .of_idle rfl (by simp) (by simp)

theorem Invariant.acceptOf (h : Invariant s) {i : Instr} (hwf : i.wellFormed = true) :
    Invariant (acceptOf i s) := by
  obtain ⟨-, ha⟩ | ⟨key, -, ha⟩ | ⟨dec, block, hkv, -, ha⟩ := acceptOf_cases i s
  · rw [ha]
    exact .of_resp rfl h.rnd_le h.keyed i hwf rfl
  · rw [ha]
    exact ⟨by simp, by simp, fun _ => ⟨rfl, by simp, key, rfl, rfl, agreeBelow_zero _ _⟩,
      by simp, by simp⟩
  · rw [ha]
    exact ⟨by simp, h.keyed, by simp, fun _ => ⟨hkv, by simp, block, rfl⟩, by simp⟩

theorem Invariant.keygenStep (h : Invariant s) (hp : s.PHASE = .keygen)
    (ht : keygenStep s = .next t) : Invariant t := by
  obtain ⟨hkv, -, key, hC, hD, hK⟩ := h.keygen hp
  obtain hr | hr := keygenStep_cases ht
  · have hnext : (BitVec.ofNat 5 (s.RND.toNat + 1)).toNat = s.RND.toNat + 1 :=
      toNat_ofNat_rnd (by omega)
    have hstore := AgreeBelow.keygen (key := key) (by omega) hK
    rw [keygenStep_lt hr] at ht
    cases ht
    refine ⟨by simp only [hnext]; omega, by simp [hkv], fun _ => ⟨hkv, by simp only [hnext]; omega, key, ?_⟩,
      by simp [hp], by simp [hp]⟩
    simp only [hnext, hC, hD]
    exact ⟨rfl, rfl, hstore⟩
  · rw [hr] at hC hD hK
    have hstore : AgreeBelow 16 _ (keySchedule key) := AgreeBelow.keygen (by omega) hK
    rw [keygenStep_last hr, hC, hD] at ht
    cases ht
    exact .of_resp rfl (by simp) (fun _ => ⟨key, hstore.eq⟩) (.ldkey 8 key) rfl rfl

theorem Invariant.roundStep (h : Invariant s) (hp : s.PHASE = .rounds)
    (ht : roundStep s = .next t) : Invariant t := by
  obtain ⟨hkv, -, block, hLR⟩ := h.rounds hp
  obtain ⟨hL, hR⟩ := Prod.mk.inj hLR
  obtain hr | hr := roundStep_cases ht
  · have hnext : (BitVec.ofNat 5 (s.RND.toNat + 1)).toNat = s.RND.toNat + 1 :=
      toNat_ofNat_rnd (by omega)
    rw [roundStep_lt hr] at ht
    cases ht
    refine ⟨by simp only [hnext]; omega, h.keyed, by simp [hp],
      fun _ => ⟨hkv, by simp only [hnext]; omega, block, ?_⟩, by simp [hp]⟩
    simp only [hnext]
    rw [roundHalves_succ s.K s.DEC block (by omega), ← hL, ← hR]
  · rw [hr] at hL hR
    rw [roundStep_last hr] at ht
    cases ht
    refine .of_resp rfl (by simp) h.keyed (blockCommand s.DEC 8 block)
      (by cases s.DEC <;> rfl) ?_
    simp [responseTo_blockCommand, hkv, desBlock, finalBlock,
      roundHalves_succ s.K s.DEC block (show 15 < 16 by omega), hL, hR]

/-- The invariant is inductive (R37). -/
theorem Invariant.step (h : Invariant s) (ht : step s = .next t) : Invariant t := by
  obtain ⟨-, rfl⟩ | ⟨-, ⟨-, -, rfl⟩ | ⟨-, -, rfl⟩ | ⟨hp, ht⟩ | ⟨hp, ht⟩ | ⟨-, -, rfl⟩ |
    ⟨-, -, rfl⟩⟩ := step_cases ht
  · exact invariant_resetEvent _
  · exact h.tick.acceptOf (decode_wellFormed _)
  · exact h.tick
  · exact h.tick.keygenStep hp ht
  · exact h.tick.roundStep hp ht
  · exact h.tick.deliver
  · exact h.tick

/-- Where the invariant holds the engine has a step: `RND` is in range in KEYGEN and ROUNDS. -/
theorem Invariant.step_answers (h : Invariant s) : ∃ t, Machine.step s = .next t ∧ Invariant t := by
  have hrnd : s.PHASE = .keygen ∨ s.PHASE = .rounds → s.RND.toNat ≤ 15 := by
    rintro (hp | hp)
    · obtain ⟨-, hrnd, -⟩ := h.keygen hp
      exact hrnd
    · obtain ⟨-, hrnd, -⟩ := h.rounds hp
      exact hrnd
  obtain ⟨t, ht⟩ := Machine.step_answers hrnd
  exact ⟨t, ht, h.step ht⟩

/-- Settles O42: the invariant is inductive. -/
theorem invariantKept : Obligations.InvariantKept := fun _ _ h ht => h.step ht

/-- Settles O43: the reset state is idle, with `RND` = 0 and no valid key. -/
theorem invariantAtReset : Obligations.InvariantAtReset :=
  fun _ => .of_idle rfl (by simp) (by simp)

/-- Settles O44, by induction on the number of steps: each one answers a next state and keeps the
invariant. -/
theorem invariantNeverStops : Obligations.InvariantNeverStops := fun _ h n =>
  let ⟨t, ht, _⟩ := run_keeps (fun _ hu => Invariant.step_answers hu) n h
  ⟨t, ht⟩

end Sys2Proof.Machine
end

section
/-!
PROOFS. What a host can see (10_state.md R34, R39): two engines alike in everything that can still
reach the ports stay alike, show the same outputs and deliver the same responses.
-/

namespace Sys2Proof.Machine

variable {s t : State}

/-- The responses the host takes in this step: the one shown, when it is ready for it (R32, R219). -/
def takenNow (s : State) : List Response :=
  if s.now.rst = false ∧ s.PHASE = .resp ∧ s.now.rspReady = true
    then [⟨s.RSP_STATUS, s.RSP_DATA⟩] else []

/-- A step delivers what the host takes in it and nothing else. -/
theorem step_delivered (h : step s = .next t) : t.delivered = s.delivered ++ takenNow s := by
  obtain ⟨hr, rfl⟩ | ⟨hr, ⟨hp, -, rfl⟩ | ⟨hp, -, rfl⟩ | ⟨hp, ht⟩ | ⟨hp, ht⟩ | ⟨hp, hv, rfl⟩ |
    ⟨hp, hv, rfl⟩⟩ := step_cases h
  · simp [takenNow, hr]
  · simp [takenNow, hp]
  · simp [takenNow, hp]
  · obtain ⟨-, -, -, hd, -⟩ := keygenStep_frame ht
    simp [takenNow, hp, hd]
  · obtain ⟨-, -, -, -, -, hd, -⟩ := roundStep_frame ht
    simp [takenNow, hp, hd]
  · simp [takenNow, hr, hp, hv]
  · simp [takenNow, hv]

/-- The response to a rejected command does not depend on the subkey store. -/
theorem responseTo_rejected {i : Instr} {kv : Bool} (h : accepted i kv = false)
    (ks ks' : RoundKeySet) : responseTo i kv ks = responseTo i kv ks' := by
  cases i with
  | rsvd len data => rfl
  | ldkey len key => rfl
  | enc len block =>
    have hrej : len = 8 → kv = false := by simpa [accepted] using h
    simp +contextual [responseTo, hrej]
  | dec len block =>
    have hrej : len = 8 → kv = false := by simpa [accepted] using h
    simp +contextual [responseTo, hrej]

/-! ### Engines that look alike -/

/-- `s` and `t` agree on everything a host can still come to see: the phase, `KV` and the inputs to
come; the subkey store if it is valid; and in each phase the registers the transaction in flight
still reads. -/
structure Alike (s t : State) : Prop where
  phase : s.PHASE = t.PHASE
  keyValid : s.KV = t.KV
  inputs : s.inputs = t.inputs
  store : s.KV = true → s.K = t.K
  keygen : s.PHASE = .keygen → s.RND.toNat ≤ 15 ∧ s.RND = t.RND ∧ s.C = t.C ∧ s.D = t.D ∧
    AgreeBelow s.RND.toNat s.K t.K
  rounds : s.PHASE = .rounds → s.RND.toNat ≤ 15 ∧ s.RND = t.RND ∧ s.L = t.L ∧ s.R = t.R ∧
    s.DEC = t.DEC ∧ s.KV = true
  resp : s.PHASE = .resp → s.RSP_STATUS = t.RSP_STATUS ∧ s.RSP_DATA = t.RSP_DATA

/-- In IDLE nothing is in flight: a valid store is all the registers that matter. -/
theorem Alike.of_idle (hs : s.PHASE = .idle) (ht : t.PHASE = .idle) (hkv : s.KV = t.KV)
    (hin : s.inputs = t.inputs) (hK : s.KV = true → s.K = t.K) : Alike s t where
  phase := by rw [hs, ht]
  keyValid := hkv
  inputs := hin
  store := hK
  keygen h := by simp [hs] at h
  rounds h := by simp [hs] at h
  resp h := by simp [hs] at h

/-- In RESP the response shown matters as well. -/
theorem Alike.of_resp (hs : s.PHASE = .resp) (ht : t.PHASE = .resp) (hkv : s.KV = t.KV)
    (hin : s.inputs = t.inputs) (hK : s.KV = true → s.K = t.K)
    (hstatus : s.RSP_STATUS = t.RSP_STATUS) (hdata : s.RSP_DATA = t.RSP_DATA) : Alike s t where
  phase := by rw [hs, ht]
  keyValid := hkv
  inputs := hin
  store := hK
  keygen h := by simp [hs] at h
  rounds h := by simp [hs] at h
  resp _ := ⟨hstatus, hdata⟩

theorem Alike.now (h : Alike s t) : s.now = t.now := by simp only [State.now, h.inputs]

/-- Engines that are alike show the same outputs (R33). -/
theorem Alike.outputs (h : Alike s t) : s.outputs = t.outputs := by
  simp only [State.outputs, ← h.phase, ← h.keyValid]
  split
  case isTrue hp => obtain ⟨hstatus, hdata⟩ := h.resp hp; rw [hstatus, hdata]
  case isFalse => rfl

/-- Engines that are alike deliver the same response in a step, if any. -/
theorem Alike.takenNow (h : Alike s t) : takenNow s = takenNow t := by
  simp only [Machine.takenNow, ← h.now, ← h.phase]
  split
  case isTrue hc =>
    obtain ⟨-, hp, -⟩ := hc
    obtain ⟨hstatus, hdata⟩ := h.resp hp
    rw [hstatus, hdata]
  case isFalse => rfl

/-! ### Every operation keeps engines alike -/

theorem Alike.tick (h : Alike s t) : Alike s.tick t.tick :=
  ⟨h.phase, h.keyValid, congrArg List.tail h.inputs, h.store, h.keygen, h.rounds, h.resp⟩

theorem Alike.deliver (h : Alike s t) : Alike (deliver s) (deliver t) :=
  .of_idle rfl rfl h.keyValid h.inputs h.store

/-- After a reset `KV` = 0 hides the store, whatever it holds (R39). -/
theorem alike_resetEvent (h : s.inputs = t.inputs) : Alike (resetEvent s) (resetEvent t) :=
  .of_idle rfl rfl rfl h (by simp)

theorem Alike.acceptOf (h : Alike s t) (i : Instr) : Alike (acceptOf i s) (acceptOf i t) := by
  cases ha : accepted i s.KV with
  | false =>
    rw [acceptOf_respond ha, acceptOf_respond (h.keyValid ▸ ha), ← h.keyValid,
      responseTo_rejected ha t.K s.K]
    exact .of_resp rfl rfl h.keyValid h.inputs h.store rfl rfl
  | true =>
    obtain ⟨key, rfl⟩ | ⟨hkv, dec, block, rfl⟩ := accepted_cases ha
    · simp only [Machine.acceptOf, acceptLdkey_ok]
      exact ⟨rfl, rfl, h.inputs, by simp, fun _ => ⟨by simp, rfl, rfl, rfl, agreeBelow_zero _ _⟩,
        by simp, by simp⟩
    · rw [acceptOf_blockCommand, acceptBlock_ok dec block s hkv,
        acceptBlock_ok dec block t (h.keyValid ▸ hkv)]
      exact ⟨rfl, h.keyValid, h.inputs, h.store, by simp,
        fun _ => ⟨by simp, rfl, rfl, rfl, rfl, hkv⟩, by simp⟩

theorem Alike.keygenStep (h : Alike s t) (hp : s.PHASE = .keygen) :
    ∃ s' t', keygenStep s = .next s' ∧ keygenStep t = .next t' ∧ Alike s' t' := by
  obtain ⟨hrnd, hrndt, hC, hD, hK⟩ := h.keygen hp
  obtain hr | hr := hrnd.lt_or_eq
  · have hnext : (BitVec.ofNat 5 (s.RND.toNat + 1)).toNat = s.RND.toNat + 1 :=
      toNat_ofNat_rnd (by omega)
    refine ⟨_, _, keygenStep_lt hr, keygenStep_number (congrArg BitVec.toNat hrndt).symm hr, ?_⟩
    rw [← hC, ← hD]
    exact ⟨h.phase, h.keyValid, h.inputs, fun hkv => by simp [h.store hkv],
      fun _ => ⟨by simp only [hnext]; omega, rfl, rfl, rfl, by simp only [hnext]; exact hK.set _ _⟩,
      by simp [hp], by simp [hp]⟩
  · refine ⟨_, _, keygenStep_last hr, keygenStep_last (hrndt ▸ hr), ?_⟩
    rw [hr] at hK
    rw [← hC, ← hD]
    exact .of_resp rfl rfl rfl h.inputs (fun _ => (hK.set (by decide) _).eq) rfl rfl

theorem Alike.roundStep (h : Alike s t) (hp : s.PHASE = .rounds) :
    ∃ s' t', roundStep s = .next s' ∧ roundStep t = .next t' ∧ Alike s' t' := by
  obtain ⟨hrnd, hrndt, hL, hR, hDEC, hkv⟩ := h.rounds hp
  have hK := h.store hkv
  obtain hr | hr := hrnd.lt_or_eq
  · have hnext : (BitVec.ofNat 5 (s.RND.toNat + 1)).toNat = s.RND.toNat + 1 :=
      toNat_ofNat_rnd (by omega)
    refine ⟨_, _, roundStep_lt hr, roundStep_number (congrArg BitVec.toNat hrndt).symm hr, ?_⟩
    rw [← hL, ← hR, ← hDEC, ← hK]
    exact ⟨h.phase, h.keyValid, h.inputs, fun _ => rfl, by simp [hp],
      fun _ => ⟨by simp only [hnext]; omega, rfl, rfl, rfl, rfl, hkv⟩, by simp [hp]⟩
  · refine ⟨_, _, roundStep_last hr, roundStep_last (hrndt ▸ hr), ?_⟩
    rw [← hL, ← hR, ← hDEC, ← hK]
    exact .of_resp rfl rfl h.keyValid h.inputs (fun _ => rfl) rfl rfl

/-- Engines that are alike make the same step, and are alike after it. -/
theorem Alike.step (h : Alike s t) :
    ∃ s' t', step s = .next s' ∧ step t = .next t' ∧ Alike s' t' := by
  obtain ⟨-, hs, ht⟩ | ⟨-, ⟨i, hs, ht⟩ | ⟨hp, hs, ht⟩ | ⟨hp, hs, ht⟩ | ⟨hs, ht⟩ | ⟨hs, ht⟩⟩ :=
    step_pair_cases h.phase h.now
  · exact ⟨_, _, hs, ht, alike_resetEvent h.tick.inputs⟩
  · exact ⟨_, _, hs, ht, h.tick.acceptOf i⟩
  · rw [hs, ht]; exact h.tick.keygenStep hp
  · rw [hs, ht]; exact h.tick.roundStep hp
  · exact ⟨_, _, hs, ht, h.tick.deliver⟩
  · exact ⟨_, _, hs, ht, h.tick⟩

/-- Engines that are alike run alike for ever and deliver the same responses, after whatever each
had delivered before. -/
theorem Alike.run (h : Alike s t) (n : Nat) :
    ∃ s' t' later, run n s = .next s' ∧ run n t = .next t' ∧ Alike s' t' ∧
      s'.delivered = s.delivered ++ later ∧ t'.delivered = t.delivered ++ later := by
  induction n generalizing s t with
  | zero => exact ⟨s, t, [], rfl, rfl, h, by simp, by simp⟩
  | succ n ih =>
    obtain ⟨u, v, hu, hv, huv⟩ := h.step
    obtain ⟨s', t', later, hs', ht', halike, hds, hdt⟩ := ih huv
    refine ⟨s', t', Machine.takenNow s ++ later, ?_, ?_, halike, ?_, ?_⟩
    · rw [run_succ_of_step hu, hs']
    · rw [run_succ_of_step hv, ht']
    · rw [hds, step_delivered hu, List.append_assoc]
    · rw [hdt, step_delivered hv, List.append_assoc, h.takenNow]

/-- Engines that are alike cannot be told apart by a host that has seen the same responses so far. -/
theorem Alike.lookAlikeAfter (h : Alike s t) (hd : s.delivered = t.delivered) (n : Nat) :
    LookAlikeAfter n s t := by
  obtain ⟨s', t', later, hs', ht', halike, hds, hdt⟩ := h.run n
  exact ⟨s', t', hs', ht', halike.outputs, by rw [hds, hdt, hd]⟩

/-- Settles O51: in IDLE and RESP the hidden registers are none of those `Alike` asks about. -/
theorem hiddenRegistersUnobservable : Obligations.HiddenRegistersUnobservable := by
  intro s t n hphase hpt hK hkv hstatus hdata hin hd
  have halike : Alike s t := by
    obtain hp | hp := hphase
    · exact .of_idle hp (hpt ▸ hp) hkv hin fun _ => hK
    · exact .of_resp hp (hpt ▸ hp) hkv hin (fun _ => hK) hstatus hdata
  exact halike.lookAlikeAfter hd n

/-- Settles O52: with `KV` = 0 an idle engine's registers reach no port until a command writes them. -/
theorem resetContentsNeverSeen : Obligations.ResetContentsNeverSeen := by
  intro s t n hps _ hkvs hpt _ hkvt hin hd
  have halike : Alike s t :=
    .of_idle hps hpt (hkvs.trans hkvt.symm) hin fun hkv => by simp [hkvs] at hkv
  exact halike.lookAlikeAfter hd n

end Sys2Proof.Machine
end

section
/-!
PROOFS. The rules of the single registers (10_state.md R20, R26, R28, R29), of the ports (R32, R33,
R251) and of the complete state (R20), from the lemmas on each operation.
-/

namespace Sys2Proof.Machine

variable {s t : State}

/-! ### Phase, round counter, key valid -/

/-- Settles O45: the phase each event of the step leaves. -/
theorem phaseTransitions : Obligations.PhaseTransitions := by
  intro s t h
  obtain ⟨hr, rfl⟩ | ⟨hr, ⟨hp, hv, rfl⟩ | ⟨hp, hv, rfl⟩ | ⟨hp, ht⟩ | ⟨hp, ht⟩ | ⟨hp, hv, rfl⟩ |
    ⟨hp, hv, rfl⟩⟩ := step_cases h
  · simp [hr]
  · have hphase : (acceptOf (decode s.now.word) s.tick).PHASE =
        if accepted (decode s.now.word) s.KV = false then .resp
        else if (decode s.now.word).loadsKey then .keygen else .rounds := acceptOf_PHASE _ _
    simp [hr, hp, hv, hphase]
  · simp [hr, hp, hv]
  · obtain ⟨-, -, hphase, -⟩ := keygenStep_counts ht
    simpa [hr, hp] using hphase
  · obtain ⟨-, -, hphase, -⟩ := roundStep_counts ht
    simpa [hr, hp] using hphase
  · simp [hr, hp, hv]
  · simp [hr, hp, hv]

/-- Settles O46: Accept writes 0 or leaves `RND`, the engine's own steps count it up to 16. -/
theorem roundCounterRule : Obligations.RoundCounterRule := by
  intro s t h hrst
  obtain ⟨hr, -⟩ | ⟨-, ⟨hp, hv, rfl⟩ | ⟨hp, hv, rfl⟩ | ⟨hp, ht⟩ | ⟨hp, ht⟩ | ⟨hp, hv, rfl⟩ |
    ⟨hp, hv, rfl⟩⟩ := step_cases h
  · simp [hrst] at hr
  · simp +contextual [hp, hv, acceptOf_RND]
  · simp [hp, hv]
  · obtain ⟨hle, hrnd, hphase, -⟩ := keygenStep_counts ht
    simpa [hp, hphase] using ⟨hle, hrnd⟩
  · obtain ⟨hle, hrnd, hphase, -⟩ := roundStep_counts ht
    simpa [hp, hphase] using ⟨hle, hrnd⟩
  · simp [hp]
  · simp [hp]

/-- `KV` after any step (R26). -/
theorem step_KV (h : step s = .next t) :
    t.KV = if s.now.rst then false
      else if s.PHASE = .idle ∧ s.now.cmdValid = true ∧ (decode s.now.word).loadsKey = true
        then false
      else if s.PHASE = .keygen ∧ s.RND.toNat = 15 then true
      else s.KV := by
  obtain ⟨hr, rfl⟩ | ⟨hr, ⟨hp, hv, rfl⟩ | ⟨hp, hv, rfl⟩ | ⟨hp, ht⟩ | ⟨hp, ht⟩ | ⟨hp, hv, rfl⟩ |
    ⟨hp, hv, rfl⟩⟩ := step_cases h
  · simp [hr]
  · simp [hr, hp, hv, acceptOf_KV]
  · simp [hr, hp, hv]
  · obtain ⟨-, -, -, hkv⟩ := keygenStep_counts ht
    by_cases hlast : s.RND.toNat = 15
    · simp [hr, hp, hkv, hlast]
    · simp [hr, hp, hkv, hlast]
  · obtain ⟨-, -, -, hkv⟩ := roundStep_counts ht
    simpa [hr, hp] using hkv
  · simp [hr, hp]
  · simp [hr, hp]

/-- A block command without a valid key is answered `NoKey` (R213, R216). -/
theorem exec_blockCommand_noKey (dec : Bool) (block : Block) (hp : s.PHASE = .idle)
    (hkv : s.KV = false) :
    exec (blockCommand dec 8 block) s =
      .next { s with RSP_STATUS := 4, RSP_DATA := 0, PHASE := .resp } := by
  rw [exec_idle _ hp, acceptOf_blockCommand, acceptBlock_noKey dec block s hkv]
  rfl

/-- Settles O47: the chain of `step_KV`, and `NoKey` in both directions. -/
theorem keyValidRule : Obligations.KeyValidRule :=
  ⟨State.reset_KV, fun _ _ h => step_KV h,
    fun _ block hp hkv =>
      ⟨exec_blockCommand_noKey false block hp hkv, exec_blockCommand_noKey true block hp hkv⟩,
    fun _ => rfl⟩

/-! ### Writers -/

/-- Settles O48: for each event, the frame of its operation. -/
theorem registersChangeOnlyByTheirWriters : Obligations.RegistersChangeOnlyByTheirWriters := by
  intro s t h
  obtain ⟨he, -⟩ | ⟨i, he, rfl⟩ | ⟨he, ht⟩ | ⟨he, ht⟩ | ⟨he, rfl⟩ | ⟨he, rfl⟩ := step_eventCases h
  · exact .inl he
  · obtain ⟨hrej, ha⟩ | ⟨key, rfl, ha⟩ | ⟨dec, block, -, rfl, ha⟩ := acceptOf_cases i s.tick
    · simpa [he, ha] using .inr hrej
    · simp [he, ha, Instr.loadsKey]
    · rw [ha]
      cases dec <;> simp [he, blockCommand]
  · obtain ⟨hL, hR, hDEC, -, hresp, hK⟩ := keygenStep_frame ht
    obtain ⟨-, -, -, hkv⟩ := keygenStep_counts ht
    by_cases hr : s.RND.toNat = 15
    · simpa [he, hL, hR, hDEC, hr] using hK
    · obtain ⟨hstatus, hdata⟩ := hresp hr
      simpa [he, hL, hR, hDEC, hr, hstatus, hdata, hkv] using hK
  · obtain ⟨hK, hKV, hC, hD, hDEC, -, hresp⟩ := roundStep_frame ht
    by_cases hr : s.RND.toNat = 15
    · simp [he, hK, hKV, hC, hD, hDEC, hr]
    · obtain ⟨hstatus, hdata⟩ := hresp hr
      simp [he, hK, hKV, hC, hD, hDEC, hr, hstatus, hdata]
  · simp
  · simp

/-! ### The eleven registers -/

/-- Two steps answer next states with the same engine, or stop with the same fault. -/
def SameOutcome (o p : Host.Outcome State Fault Refusal) : Prop :=
  (∃ s' t' : State, o = .next s' ∧ p = .next t' ∧ s'.toEngine = t'.toEngine) ∨
  (∃ f : Fault, o = .fault f ∧ p = .fault f)

section
variable {o p : Host.Outcome State Fault Refusal}

theorem SameOutcome.of_next (hs : o = .next s) (ht : p = .next t) (h : s.toEngine = t.toEngine) :
    SameOutcome o p := .inl ⟨s, t, hs, ht, h⟩

theorem SameOutcome.of_fault {f : Fault} (hs : o = .fault f) (ht : p = .fault f) :
    SameOutcome o p := .inr ⟨f, hs, ht⟩

end

/-- The engine of `s` in the surroundings of `u`: the model's own three fields are those of `u`. -/
def State.beside (s u : State) : State :=
  { s with inputs := u.inputs, delivered := u.delivered, resetCount := u.resetCount }

theorem eq_beside (h : s.toEngine = t.toEngine) : t = s.beside t := by
  cases s; cases t; cases h; rfl

theorem acceptOf_toEngine (i : Instr) (h : s.toEngine = t.toEngine) :
    (acceptOf i s).toEngine = (acceptOf i t).toEngine := by
  rw [eq_beside h]
  cases ha : accepted i s.KV with
  | false =>
    rw [acceptOf_respond ha, acceptOf_respond (s := s.beside t) ha]
    rfl
  | true =>
    obtain ⟨key, rfl⟩ | ⟨hkv, dec, block, rfl⟩ := accepted_cases ha
    · rfl
    · rw [acceptOf_blockCommand, acceptBlock_ok dec block s hkv,
        acceptBlock_ok dec block (s.beside t) hkv]
      rfl

theorem keygenStep_sameOutcome (h : s.toEngine = t.toEngine) :
    SameOutcome (keygenStep s) (keygenStep t) := by
  rw [eq_beside h]
  obtain hr | hr | hr := lt_trichotomy s.RND.toNat 15
  · exact .of_next (keygenStep_lt hr) (keygenStep_lt (s := s.beside t) hr) rfl
  · exact .of_next (keygenStep_last hr) (keygenStep_last (s := s.beside t) hr) rfl
  · exact .of_fault (keygenStep_out hr) (keygenStep_out (s := s.beside t) hr)

theorem roundStep_sameOutcome (h : s.toEngine = t.toEngine) :
    SameOutcome (roundStep s) (roundStep t) := by
  rw [eq_beside h]
  obtain hr | hr | hr := lt_trichotomy s.RND.toNat 15
  · exact .of_next (roundStep_lt hr) (roundStep_lt (s := s.beside t) hr) rfl
  · exact .of_next (roundStep_last hr) (roundStep_last (s := s.beside t) hr) rfl
  · exact .of_fault (roundStep_out hr) (roundStep_out (s := s.beside t) hr)

/-- A step that is no reset reads the engine and this step's port values, and nothing else. -/
theorem step_sameOutcome (h : s.toEngine = t.toEngine) (hnow : s.now = t.now)
    (hr : s.now.rst = false) : SameOutcome (step s) (step t) := by
  obtain ⟨hr', -⟩ | ⟨-, ⟨i, hs, ht⟩ | ⟨-, hs, ht⟩ | ⟨-, hs, ht⟩ | ⟨hs, ht⟩ | ⟨hs, ht⟩⟩ :=
    step_pair_cases (congrArg Engine.PHASE h) hnow
  · simp [hr] at hr'
  · exact .of_next hs ht (acceptOf_toEngine i h)
  · rw [hs, ht]; exact keygenStep_sameOutcome h
  · rw [hs, ht]; exact roundStep_sameOutcome h
  · exact .of_next hs ht (by simp [h])
  · exact .of_next hs ht h

/-- Settles O56: outputs and event read the engine's registers and the port values, and so does the
step. -/
theorem engineIsCompleteState : Obligations.EngineIsCompleteState := by
  intro s t h hnow
  refine ⟨?_, ?_, step_sameOutcome h hnow⟩
  · rw [eq_beside h]; rfl
  · have hphase : s.PHASE = t.PHASE := congrArg Engine.PHASE h
    simp only [nextEvent, hnow, hphase]

/-! ### Ports -/

/-- Settles O7: the outputs read PHASE, `KV` and the response registers. -/
theorem outputsFollowPhase : Obligations.OutputsFollowPhase := by
  intro s
  refine ⟨by simp [State.outputs], by simp [State.outputs], rfl, ?_, ?_⟩
  · intro hp
    simp [State.outputs, hp]
  · simp +contextual [State.outputs]

/-- `cmd_ready` = 1 in IDLE (R33). -/
theorem cmdReady_iff (s : State) : s.outputs.cmdReady = true ↔ s.PHASE = .idle := by
  simp [State.outputs]

/-- `cmd_ready` = 0 outside IDLE (R33). -/
theorem cmdReady_eq_false_iff (s : State) : s.outputs.cmdReady = false ↔ s.PHASE ≠ .idle := by
  simp [State.outputs]

/-- `rsp_valid` = 1 in RESP (R33). -/
theorem rspValid_iff (s : State) : s.outputs.rspValid = true ↔ s.PHASE = .resp := by
  simp [State.outputs]

/-- The event of a busy engine does not depend on the command port (R32). -/
theorem nextEvent_busy (h : s.PHASE ≠ .idle) (hpt : s.PHASE = t.PHASE)
    (hrst : s.now.rst = t.now.rst) (hready : s.now.rspReady = t.now.rspReady) :
    nextEvent s = nextEvent t := by
  simp only [nextEvent, ← hpt, hrst, hready]
  cases hp : s.PHASE with
  | idle => exact absurd hp h
  | keygen => rfl
  | rounds => rfl
  | resp => rfl

/-- Settles O8: each port of the handshake decides the step in its own phase. -/
theorem handshakeRule : Obligations.HandshakeRule := by
  refine ⟨?_, ?_, ?_, ?_⟩
  · intro s hr hv hready
    have hp : s.PHASE = .idle := (cmdReady_iff s).mp hready
    rw [step_idle_present hp hr hv, exec_idle (s := s.tick) _ hp]
  · intro s hr hv hvalid
    exact step_deliver ((rspValid_iff s).mp hvalid) hr hv
  · intro s p q rest hbusy hrst hready
    exact step_congr (nextEvent_busy ((cmdReady_eq_false_iff s).mp hbusy) rfl hrst hready) rfl
  · intro s i hbusy
    exact exec_busy i ((cmdReady_eq_false_iff s).mp hbusy)

/-- A step of an idle engine that is presented command `i` (R32, R88). -/
theorem step_presented {i : Instr} (hwf : i.wellFormed = true) (hp : s.PHASE = .idle)
    (hr : s.now.rst = false) (hv : s.now.cmdValid = true) (hw : s.now.word = encode i) :
    step s = exec i s.tick := by
  rw [step_idle_present hp hr hv, hw, decode_encode i hwf, exec_idle (s := s.tick) i hp]

/-- Settles O6: the decoder undoes the encoder on the command port, and `withFetchWord` puts the
whole word there. -/
theorem stepRunsPresentedCommand : Obligations.StepRunsPresentedCommand := by
  refine ⟨fun s i hwf hp hr hv hw => step_presented hwf hp hr hv hw, fun s i hwf => ?_⟩
  have hword : BitVec.ofNat 70 ((encode i).toNat % 2 ^ 72) = encode i := by
    have hlt := (encode i).isLt
    rw [Nat.mod_eq_of_lt (by omega), BitVec.ofNat_toNat, BitVec.setWidth_eq]
  have hport : (s.withFetchWord 72 (encode i).toNat).now.word = encode i :=
    (PortIn.word_present _ _).trans hword
  exact step_presented hwf rfl rfl rfl hport

/-- Settles O9: the two waits of `step_cases`. -/
theorem waitingChangesNothing : Obligations.WaitingChangesNothing :=
  ⟨fun _ hp hr hv => step_idle_wait hp hr hv, fun _ hp hr hv => step_resp_wait hp hr hv⟩

/-- Settles O11: the reset state is idle, and its outputs show that. -/
theorem resetStateOutputs : Obligations.ResetStateOutputs :=
  ⟨State.reset_PHASE, State.reset_RND, State.reset_KV, by simp [State.outputs]⟩

end Sys2Proof.Machine
end

section
/-!
PROOFS. The key store between two key loads (20_memory.md R65, 43_cipher_engine.md R198) and the
response channel (R57).
-/

namespace Sys2Proof.Machine

/-! ### Lists of transactions -/

theorem transactAll_cons (i : Instr) (is : List Instr) (s : State) :
    transactAll (i :: is) s = transactAll is (transact i s) := rfl

theorem transactAll_concat (is : List Instr) (i : Instr) (s : State) :
    transactAll (is ++ [i]) s = transact i (transactAll is s) := List.foldl_concat ..

/-! ### Transactions that load no key -/

/-- A command that is no well-formed LDKEY leaves `KV` and the subkey store as they are (R25, R65). -/
theorem transact_keeps_store {i : Instr} (h : i.loadsKey = false) (s : State) :
    (transact i s).KV = s.KV ∧ (transact i s).K = s.K := by
  cases ha : accepted i s.KV with
  | false => simp [transact, ha]
  | true =>
    obtain ⟨key, rfl⟩ | ⟨hkv, dec, block, rfl⟩ := accepted_cases ha
    · cases h
    · simp [transact, ha, workOf_blockCommand]

theorem transactAll_keeps_store {is : List Instr} (h : ∀ i ∈ is, i.loadsKey = false) (s : State) :
    (transactAll is s).KV = s.KV ∧ (transactAll is s).K = s.K := by
  induction is generalizing s with
  | nil => exact ⟨rfl, rfl⟩
  | cons i is ih =>
    obtain ⟨hkv, hK⟩ := transact_keeps_store (h i List.mem_cons_self) s
    obtain ⟨hkvs, hKs⟩ := ih (fun j hj => h j (List.mem_cons_of_mem i hj)) (transact i s)
    exact ⟨hkvs.trans hkv, hKs.trans hK⟩

/-- A well-formed LDKEY leaves a valid store that holds its key's schedule (R153). -/
theorem transact_ldkey_store (key : Block) (s : State) :
    (transact (.ldkey 8 key) s).KV = true ∧ (transact (.ldkey 8 key) s).K = keySchedule key :=
  ⟨rfl, rfl⟩

/-! ### The last response of a script -/

/-- The last response of a list of commands is the response to the last of them, with the store the
others leave. -/
theorem transactAll_getLast_delivered (is : List Instr) (i : Instr) (s : State) :
    (transactAll (is ++ [i]) s).delivered.getLast? =
      some (responseTo i (transactAll is s).KV (transactAll is s).K) := by
  rw [transactAll_concat, transact_delivered, List.getLast?_concat]

theorem desBlock_keySchedule (key block : Block) (dec : Bool) :
    desBlock (keySchedule key) block dec =
      if dec then decrypt key block else encrypt key block := by
  cases dec <;> rfl

theorem wellFormed_blockCommand (dec : Bool) (block : Block) :
    (blockCommand dec 8 block).wellFormed = true := by cases dec <;> rfl

/-- The response to a block command after an LDKEY and any commands that load no key. -/
theorem last_response_after_ldkey (key block : Block) (dec : Bool) {between : List Instr}
    (h : ∀ i ∈ between, i.loadsKey = false) (s : State) :
    (transactAll (.ldkey 8 key :: (between ++ [blockCommand dec 8 block])) s).delivered.getLast? =
      some ⟨statusOK, if dec then decrypt key block else encrypt key block⟩ := by
  obtain ⟨hkv, hK⟩ := transact_ldkey_store key s
  obtain ⟨hkvs, hKs⟩ := transactAll_keeps_store h (transact (.ldkey 8 key) s)
  rw [transactAll_cons, transactAll_getLast_delivered, hkvs, hKs, hkv,
    hK, responseTo_blockCommand, desBlock_keySchedule]
  rfl

/-- Settles O54: the script is the list of its atomic transactions, and those between the LDKEY and
the block command keep the store the LDKEY left. -/
theorem latestKeyDecidesResult : Obligations.LatestKeyDecidesResult := by
  intro s key block dec between hp hbetween is hin
  have hwf : ∀ i ∈ is, i.wellFormed = true := by
    intro i hi
    obtain rfl | hi := List.mem_cons.mp hi
    · rfl
    · obtain hi | hi := List.mem_append.mp hi
      · exact (hbetween i hi).left
      · exact List.mem_singleton.mp hi ▸ wellFormed_blockCommand dec block
  exact ⟨_, run_commands is [] hwf hp (hin.trans (List.append_nil _).symm),
    last_response_after_ldkey key block dec (fun i hi => (hbetween i hi).right) _⟩

/-! ### The response channel -/

/-- Settles O49: what the host takes in a step is all that the step delivers. -/
theorem responsesDeliveredOnce : Obligations.ResponsesDeliveredOnce := fun _ _ h => step_delivered h

end Sys2Proof.Machine
end

section
/-!
PROOFS. Bytes and bits (20_memory.md R51 to R54): the eight bytes of a 64-bit port, and the two
conversions between byte lists and bit lists, which undo each other.
-/

namespace Sys2Proof.Machine

/-! ### The bytes of a port -/

/-- Byte `k` of a port is its positions 8k+1 to 8k+8 (R51). -/
theorem portByte_eq_positions (v : Block) (k : Nat) : portByte v k = positions v (8 * k + 1) 8 := by
  rw [portByte, positions, show 64 + 1 - (8 * k + 1) - 8 = 56 - 8 * k by omega]

/-- Position `i` of byte `k` is position 8k+i of the port (R51). -/
theorem bitAt_portByte (v : Block) {k i : Nat} (hk : k < 8) (h1 : 1 ≤ i) (h8 : i ≤ 8) :
    bitAt (portByte v k) i = bitAt v (8 * k + i) := by
  rw [portByte_eq_positions, bitAt_positions v _ 8 i (by omega) h1 h8 (by omega),
    Nat.add_right_comm, Nat.add_sub_cancel]

theorem toNat_portByte (v : Block) (k : Nat) :
    (portByte v k).toNat = v.toNat / 2 ^ (56 - 8 * k) % 256 := by
  rw [portByte, BitVec.extractLsb'_toNat, Nat.shiftRight_eq_div_pow]

theorem bytesToNat_concat (bytes : List Byte) (b : Byte) :
    bytesToNat (bytes ++ [b]) = bytesToNat bytes * 256 + b.toNat := List.foldl_concat ..

/-- The first `k` bytes of a port are the big-endian number of its upper 8k bits (R51). -/
theorem bytesToNat_first_portBytes (v : Block) {k : Nat} (hk : k ≤ 8) :
    bytesToNat ((List.range k).map (portByte v)) = v.toNat / 2 ^ (64 - 8 * k) := by
  induction k with
  | zero => exact (Nat.div_eq_of_lt v.isLt).symm
  | succ k ih =>
    have hpow : 2 ^ (64 - 8 * k) = 2 ^ (56 - 8 * k) * 256 := by
      rw [show 64 - 8 * k = 56 - 8 * k + 8 by omega, Nat.pow_add 2 _ 8]
    rw [List.range_succ, List.map_append, List.map_singleton, bytesToNat_concat, ih (by omega),
      toNat_portByte, hpow, ← Nat.div_div_eq_div_mul, show 64 - 8 * (k + 1) = 56 - 8 * k by omega]
    omega

/-- The bits of the first `k` bytes of a port are its first 8k positions (R51, R52). -/
theorem bytesToBits_first_portBytes (v : Block) {k : Nat} (hk : k ≤ 8) :
    bytesToBits ((List.range k).map (portByte v)) =
      (List.range (8 * k)).map fun i => bitAt v (i + 1) := by
  induction k with
  | zero => rfl
  | succ k ih =>
    have hbyte : toBits (portByte v k) = (List.range 8).map fun i => bitAt v (8 * k + i + 1) :=
      List.map_congr_left fun i hi =>
        bitAt_portByte v hk (Nat.le_add_left 1 i) (List.mem_range.mp hi)
    rw [bytesToBits] at ih ⊢
    rw [List.range_succ, List.map_append, List.flatMap_append, ih (by omega), Nat.mul_succ,
      List.range_add, List.map_append, List.map_map]
    simp [hbyte, Function.comp_def]

/-- Settles O12: a position of the port is one of its byte, and the first eight bytes are all of it. -/
theorem portByteOrder : Obligations.PortByteOrder := by
  intro v
  refine ⟨fun p h1 h64 => ?_, fun _ _ _ => rfl, ?_, bytesToBits_first_portBytes v le_rfl⟩
  · have hbyte := bitAt_portByte v (k := (p - 1) / 8) (i := (p - 1) % 8 + 1)
      (by omega) (by omega) (by omega)
    rw [show 8 * ((p - 1) / 8) + ((p - 1) % 8 + 1) = p by omega] at hbyte
    rw [← hbyte, bitAt, Nat.add_sub_add_right 7 1]
  · exact (bytesToNat_first_portBytes v le_rfl).trans (Nat.div_one _)

/-! ### A vector and its bits -/

/-- A bit list as a vector of its length: position `i` is entry `i`, counted from 1 (R10). -/
theorem bitAt_ofNat_bitsToNat (bs : List Bool) {i : Nat} (h1 : 1 ≤ i) (hn : i ≤ bs.length) :
    bitAt (BitVec.ofNat bs.length (bitsToNat bs)) i = bs.getD (i - 1) false := by
  have hlt : bs.length - i < bs.length := by omega
  rw [bitAt, BitVec.getLsbD_ofNat, testBit_bitsToNat, if_pos hlt,
    show bs.length - 1 - (bs.length - i) = i - 1 by omega]
  simp [hlt]

theorem toBits_ofNat_bitsToNat {n : Nat} {bs : List Bool} (hl : bs.length = n) :
    toBits (BitVec.ofNat n (bitsToNat bs)) = bs := by
  subst hl
  refine List.ext_getElem (length_toBits _) fun i hi hi' => ?_
  rw [List.getElem_eq_iff, getElem?_toBits _ i hi',
    bitAt_ofNat_bitsToNat bs (Nat.le_add_left 1 i) hi']
  simp [hi']

theorem toBits_injective {n : Nat} : Function.Injective (toBits (n := n)) := by
  intro v w h
  refine eq_of_bitAt_eq fun i h1 hn => ?_
  have hi : i - 1 < n := by omega
  have hget := getElem?_toBits v (i - 1) hi
  rw [h, getElem?_toBits w (i - 1) hi, Nat.sub_add_cancel h1] at hget
  exact (Option.some.inj hget).symm

@[simp] theorem ofNat_bitsToNat_toBits {n : Nat} (v : BitVec n) :
    BitVec.ofNat n (bitsToNat (toBits v)) = v :=
  toBits_injective (toBits_ofNat_bitsToNat (length_toBits v))

/-! ### Byte lists and bit lists -/

@[simp] theorem bytesToBits_cons (b : Byte) (bytes : List Byte) :
    bytesToBits (b :: bytes) = toBits b ++ bytesToBits bytes := List.flatMap_cons

@[simp] theorem length_bytesToBits (bytes : List Byte) :
    (bytesToBits bytes).length = 8 * bytes.length := by
  induction bytes with
  | nil => rfl
  | cons b bytes ih =>
    rw [bytesToBits_cons, List.length_append, length_toBits, ih, List.length_cons]
    omega

theorem packBytes_bytesToBits (bytes : List Byte) :
    packBytes bytes.length (bytesToBits bytes) = bytes := by
  induction bytes with
  | nil => rfl
  | cons b bytes ih =>
    rw [List.length_cons, packBytes, bytesToBits_cons, List.take_left' (length_toBits b),
      List.drop_left' (length_toBits b), ofNat_bitsToNat_toBits, ih]

theorem bytesToBits_packBytes {n : Nat} {bits : List Bool} (h : bits.length = 8 * n) :
    bytesToBits (packBytes n bits) = bits := by
  induction n generalizing bits with
  | zero => exact (List.length_eq_zero_iff.mp h).symm
  | succ n ih =>
    have htake : (bits.take 8).length = 8 := by rw [List.length_take]; omega
    have hdrop : (bits.drop 8).length = 8 * n := by rw [List.length_drop]; omega
    rw [packBytes, bytesToBits_cons, toBits_ofNat_bitsToNat htake, ih hdrop,
      List.take_append_drop]

/-- Settles O13: packing takes the eight bits of each byte off again, and unpacking puts them back. -/
theorem byteBitRoundTrip : Obligations.ByteBitRoundTrip := by
  refine ⟨fun bytes => ?_, fun bits h => ?_, fun bits h => if_neg h⟩
  · simp [bitsToBytes, packBytes_bytesToBits]
  · exact ⟨_, if_pos h, bytesToBits_packBytes (Nat.mul_div_cancel' (Nat.dvd_of_mod_eq_zero h)).symm⟩

end Sys2Proof.Machine
end

section
/-!
PROOFS. The command word and its written form (30_encoding.md R81 to R91): the fields of a decoded
word, the mask of the opcode table, the nine bytes of a word, and the operands that have no effect.
-/

namespace Sys2Proof

open Machine

/-! ### The fields of a decoded word -/

/-- Settles O1: `decode_encode`. -/
theorem decodeOfEncode : Obligations.DecodeOfEncode := decode_encode

/-- The four rows of the opcode table (R82). -/
theorem op_cases : ∀ op : BitVec 2, op = 0b00#2 ∨ op = 0b01#2 ∨ op = 0b10#2 ∨ op = 0b11#2 := by
  decide

/-- Decoding by the value of `op` (R88). -/
theorem decode_cases (w : CmdWord) :
    (cmdOp w = 0b00#2 ∧ decode w = .rsvd (cmdLen w) (cmdData w)) ∨
    (cmdOp w = 0b01#2 ∧ decode w = .ldkey (cmdLen w) (cmdData w)) ∨
    (cmdOp w = 0b10#2 ∧ decode w = .enc (cmdLen w) (cmdData w)) ∨
    (cmdOp w = 0b11#2 ∧ decode w = .dec (cmdLen w) (cmdData w)) := by
  obtain h | h | h | h := op_cases (cmdOp w) <;> simp [decode, h]

@[simp] theorem opcode_decode (w : CmdWord) : (decode w).opcode = cmdOp w := by
  obtain ⟨hop, h⟩ | ⟨hop, h⟩ | ⟨hop, h⟩ | ⟨hop, h⟩ := decode_cases w <;> rw [h, hop] <;> rfl

@[simp] theorem len_decode (w : CmdWord) : (decode w).len = cmdLen w := by
  obtain ⟨-, h⟩ | ⟨-, h⟩ | ⟨-, h⟩ | ⟨-, h⟩ := decode_cases w <;> rw [h] <;> rfl

@[simp] theorem data_decode (w : CmdWord) : (decode w).data = cmdData w := by
  obtain ⟨-, h⟩ | ⟨-, h⟩ | ⟨-, h⟩ | ⟨-, h⟩ := decode_cases w <;> rw [h] <;> rfl

/-- Decoding drops no bit of a word (R81, R88). -/
theorem encode_decode (w : CmdWord) : encode (decode w) = w := by
  rw [encode, opcode_decode, len_decode, data_decode, cmdLen, BitVec.ofNat_toNat,
    BitVec.setWidth_eq]
  exact append_fields w

/-- Settles O2: the decoded command has the word's three fields, and a word is its three fields. -/
theorem encodeOfDecode : Obligations.EncodeOfDecode := fun w =>
  ⟨decode_wellFormed w, encode_decode w⟩

/-! ### The opcode table -/

theorem cmdLen_eq (w : CmdWord) : cmdLen w = w.toNat / 2 ^ 64 % 16 := by
  rw [cmdLen, BitVec.extractLsb'_toNat, Nat.shiftRight_eq_div_pow]

theorem cmdData_eq (w : CmdWord) : cmdData w = BitVec.ofNat 64 w.toNat := rfl

/-- The mask of the opcode table keeps `op` and clears the two operands (R88). -/
theorem and_opMask (w : CmdWord) :
    w &&& 0x300000000000000000#70 = cmdOp w ++ 0#4 ++ 0#64 := by
  have hmask : 0x300000000000000000#70 = 0b11#2 ++ 0#4 ++ 0#64 := rfl
  conv_lhs => rw [← append_fields w, hmask, BitVec.and_append, BitVec.and_append]
  rw [cmdOp, BitVec.and_zero, BitVec.and_zero, show 0b11#2 = BitVec.allOnes 2 from rfl,
    BitVec.and_allOnes]

/-- Settles O3: under the mask only `op` is left, and `op` alone selects the command. -/
theorem decodeFollowsOpcodeTable : Obligations.DecodeFollowsOpcodeTable := by
  intro w
  simp only [and_opMask, ← cmdLen_eq, ← cmdData_eq]
  obtain ⟨hop, h⟩ | ⟨hop, h⟩ | ⟨hop, h⟩ | ⟨hop, h⟩ := decode_cases w <;> simp [hop, h]

/-- Settles O4: the decoder evaluated on the seven words. -/
theorem writtenWordsDecode : Obligations.WrittenWordsDecode := by
  unfold Obligations.WrittenWordsDecode
  decide

/-! ### The written form -/

theorem decodeNat_toNat (w : CmdWord) : decodeNat w.toNat = .ok (decode w) := by
  rw [decodeNat, if_pos w.isLt, BitVec.ofNat_toNat, BitVec.setWidth_eq]

theorem decodeNat_encode {i : Instr} (h : i.wellFormed = true) :
    decodeNat (encode i).toNat = .ok i := by rw [decodeNat_toNat, decode_encode i h]

@[simp] theorem length_encodeBytes (i : Instr) : (encodeBytes i).length = 9 := by
  simp [encodeBytes]

theorem bytesToNat_cons (b : Byte) (bytes : List Byte) :
    bytesToNat (b :: bytes) = b.toNat * 256 ^ bytes.length + bytesToNat bytes := by
  induction bytes using List.reverseRecOn with
  | nil => simp [bytesToNat]
  | append_singleton bytes c ih =>
    rw [← List.cons_append, bytesToNat_concat, bytesToNat_concat, ih, List.length_append]
    simp only [List.length_singleton, Nat.pow_succ]
    ring

theorem toNat_cmdData (w : CmdWord) : (cmdData w).toNat = w.toNat % 2 ^ 64 := by
  simp [cmdData_eq]

/-- After the first byte, `op` and `len`, the bytes of a word are those of its data (R81, R91). -/
theorem encodeBytes_eq (i : Instr) :
    encodeBytes i = ((encode i).setWidth 72).extractLsb' 64 8 :: portBytes i.data := by
  have htail (k : Nat) :
      ((encode i).setWidth 72).extractLsb' (8 * (8 - (k + 1))) 8 = portByte i.data k := by
    refine BitVec.eq_of_getLsbD_eq fun j hj => ?_
    rw [portByte, BitVec.getLsbD_extractLsb', BitVec.getLsbD_extractLsb', BitVec.getLsbD_setWidth,
      show 8 * (8 - (k + 1)) + j = 56 - 8 * k + j by omega, encode, getLsbD_fields,
      if_pos (by omega)]
    simp [show 56 - 8 * k + j < 72 by omega]
  rw [encodeBytes, List.range_succ_eq_map, List.map_cons, List.map_map, portBytes]
  exact congrArg _ (List.map_congr_left fun k _ => htail k)

/-- The nine bytes are the big-endian number of the word (R91). -/
theorem bytesToNat_encodeBytes (i : Instr) : bytesToNat (encodeBytes i) = (encode i).toNat := by
  have hport : bytesToNat (portBytes i.data) = i.data.toNat :=
    (bytesToNat_first_portBytes _ le_rfl).trans (Nat.div_one _)
  have hdata : i.data.toNat = (encode i).toNat % 2 ^ 64 := by
    rw [← toNat_cmdData, encode, cmdData_append]
  have hlt := (encode i).isLt
  rw [encodeBytes_eq, bytesToNat_cons, hport, hdata, BitVec.extractLsb'_toNat,
    Nat.shiftRight_eq_div_pow, BitVec.toNat_setWidth,
    show (portBytes i.data).length = 8 from rfl]
  omega

theorem decodeBytes_append {bytes : List Byte} (h : bytes.length = 9) {i : Instr}
    (hi : decodeNat (bytesToNat bytes) = .ok i) (rest : List Byte) :
    decodeBytes (bytes ++ rest) = .ok (i, rest) := by
  have hlen : ¬ (bytes ++ rest).length < 9 := by rw [List.length_append]; omega
  rw [decodeBytes, if_neg hlen, List.take_left' h, List.drop_left' h, hi]

/-- Settles O5: the nine bytes are the word's number, and the number is read as the word. -/
theorem writtenFormReadBack : Obligations.WrittenFormReadBack := by
  refine ⟨fun i rest h => ?_, fun i h => ?_, fun bs h => if_pos h, fun w h => if_neg h.not_gt⟩
  · have hnat : decodeNat (bytesToNat (encodeBytes i)) = .ok i := by
      rw [bytesToNat_encodeBytes, decodeNat_encode h]
    exact decodeBytes_append (length_encodeBytes i) hnat rest
  · have hmod : (encode i).toNat % 2 ^ 72 = (encode i).toNat := by omega
    rw [decodeTableWord, hmod, decodeNat_encode h]

/-! ### Operands of rejected commands -/

/-- An operand is the low 64 bits of its command's word, position 1 at bit 63 (R10, R81). -/
theorem bitAt_data (i : Instr) {p : Nat} (h1 : 1 ≤ p) :
    bitAt i.data p = (encode i).getLsbD (64 - p) := by
  rw [encode, getLsbD_fields, if_pos (by omega), bitAt]

theorem exec_ldkey_badSize {len : Nat} (h : len ≠ 8) (key : Block) (s : State) :
    exec (.ldkey len key) s = accept (raise .invalidKeySize) s := by
  rw [exec_eq, acceptOf, funext (acceptLdkey_badSize len key · h)]

theorem exec_blockCommand_badSize (dec : Bool) {len : Nat} (h : len ≠ 8) (block : Block)
    (s : State) :
    exec (blockCommand dec len block) s = accept (raise .invalidBlockSize) s := by
  rw [exec_eq, acceptOf_blockCommand, funext (acceptBlock_badSize dec len block · h)]

/-- Settles O40: the meaning of a rejected form does not mention its operand. -/
theorem rejectedOperandIgnored : Obligations.RejectedOperandIgnored := by
  refine ⟨fun _ _ _ _ _ => rfl, fun len data data' s h => ⟨?_, ?_, ?_⟩,
    fun i p h1 _ => bitAt_data i h1⟩
  · rw [exec_ldkey_badSize h, exec_ldkey_badSize h]
  · exact (exec_blockCommand_badSize false h data s).trans
      (exec_blockCommand_badSize false h data' s).symm
  · exact (exec_blockCommand_badSize true h data s).trans
      (exec_blockCommand_badSize true h data' s).symm

end Sys2Proof
end

section
/-!
PROOFS. The permutation primitive, the tables and rotation (40_bit_conversion_and_permutation.md R115
to R125): `permute` as a lookup in the bit list, the inverse pair IP and FP, rotation modulo the width.
-/

namespace Sys2Proof.Machine

/-! ### `permute` as a table lookup -/

/-- The bits of `permute(T, v)` are the input positions the table lists, in its order (R115). -/
theorem toBits_permute {n m : Nat} (T : PermTable n m) (v : BitVec n) :
    toBits (permute T v) = T.entries.map (bitAt v) :=
  toBits_ofNat_bitsToNat (by rw [List.length_map, T.length_eq])

theorem maxEntry_eq_foldr (table : List Nat) : maxEntry table = table.foldr max ⊥ :=
  List.foldl_eq_foldr

theorem le_maxEntry {table : List Nat} {t : Nat} (h : t ∈ table) : t ≤ maxEntry table :=
  maxEntry_eq_foldr table ▸ List.le_max_of_le h le_rfl

theorem maxEntry_le {table : List Nat} {n : Nat} (h : ∀ t ∈ table, t ≤ n) : maxEntry table ≤ n :=
  maxEntry_eq_foldr table ▸ List.max_le_of_forall_le table n h

/-- The check of `applyPermutation` fails on an input shorter than some entry (R115). -/
theorem applyPermutation_short {table : List Nat} {input : List Bool} {t : Nat} (ht : t ∈ table)
    (h : input.length < t) : applyPermutation table input = .error .sizeMismatch :=
  if_pos (.inl (h.trans_le (le_maxEntry ht)))

/-- A table of the engine passes that check, and each entry looks up its position (R115, R117). -/
theorem applyPermutation_entries {n m : Nat} (T : PermTable n m) (v : BitVec n) :
    applyPermutation T.entries (toBits v) = .ok (toBits (permute T v)) := by
  have hmax : maxEntry T.entries ≤ n := maxEntry_le fun t ht => (T.inRange t ht).2
  have hzero : 0 ∉ T.entries := fun h => absurd (T.inRange 0 h).1 (by decide)
  have hentry : ∀ t ∈ T.entries, (toBits v).getD (t - 1) false = bitAt v t := fun t ht => by
    obtain ⟨h1, hn⟩ := T.inRange t ht
    rw [List.getD_eq_getElem?_getD, getElem?_toBits v _ (by omega), Nat.sub_add_cancel h1,
      Option.getD_some]
  rw [applyPermutation, length_toBits, if_neg (not_or_intro hmax.not_gt hzero), toBits_permute,
    List.map_congr_left hentry]

/-- Settles O14: each position of the output, and each entry of the list form, is one table lookup. -/
theorem permuteReadsTable : Obligations.PermuteReadsTable :=
  ⟨fun _ _ => bitAt_permute, fun _ _ => applyPermutation_entries,
    fun _ _ ⟨_, ht, h⟩ => applyPermutation_short ht h⟩

/-- Settles O15: both sides have at position `i` the exclusive or of the inputs' positions `T[i]`. -/
theorem permuteDistributesOverXor : Obligations.PermuteDistributesOverXor := by
  refine fun n m T a b => eq_of_bitAt_eq fun i h1 hm => ?_
  rw [bitAt_xor, bitAt_permute T _ i h1 hm, bitAt_permute T a i h1 hm, bitAt_permute T b i h1 hm,
    bitAt_xor]

/-! ### The tables -/

/-- A table `S` undoes a table `T` when each entry of `S` points at the place where `T` has the
output position of `S` (R119). -/
theorem permute_permute_of_inverse {n m : Nat} {S : PermTable m n} {T : PermTable n m}
    (h : ∀ i < n, T.entries.getD (S.entries.getD i 0 - 1) 0 = i + 1) (v : BitVec n) :
    permute S (permute T v) = v := by
  refine eq_of_bitAt_eq fun i h1 hn => ?_
  obtain ⟨hpos, hle⟩ := entry_inRange S i h1 hn
  rw [bitAt_permute S _ i h1 hn, bitAt_permute T v _ hpos hle, h (i - 1) (by omega),
    Nat.sub_add_cancel h1]

/-- Settles O17: the two tables, looked up one in the other, give each position back. -/
theorem finalPermutationInvertsInitial : Obligations.FinalPermutationInvertsInitial := fun v =>
  ⟨permute_permute_of_inverse (by decide) v, permute_permute_of_inverse (by decide) v⟩

/-- A table as wide as its input that has no repeats is a permutation of all the positions: its
entries lie among them, and there are as many (R124). -/
theorem PermTable.perm_of_nodup {n : Nat} (T : PermTable n n) (h : T.entries.Nodup) :
    T.entries.Perm (List.range' 1 n) := by
  have hsub : T.entries ⊆ List.range' 1 n := fun t ht => by
    obtain ⟨h1, hn⟩ := T.inRange t ht
    exact List.mem_range'_1.mpr ⟨h1, by omega⟩
  refine (List.subperm_of_subset h hsub).perm_of_length_le ?_
  rw [List.length_range', T.length_eq]

/-- Settles O16: the square tables have no repeats; the others are read off entry by entry. -/
theorem tablesWellFormed : Obligations.TablesWellFormed :=
  ⟨Table.IP.perm_of_nodup (by decide), Table.FP.perm_of_nodup (by decide),
    Table.P.perm_of_nodup (by decide), ⟨by decide, by decide⟩, ⟨by decide, by decide⟩, by decide⟩

/-! ### Rotation -/

/-- `rotl_n(v, s)⟨i⟩` counts `s` positions on from `i`, modulo the width (R125). -/
theorem bitAt_rotl_mod {n : Nat} (v : BitVec n) {s i : Nat} (hs : s ≤ n) (h1 : 1 ≤ i) (hn : i ≤ n) :
    bitAt (rotl v s) i = bitAt v ((i - 1 + s) % n + 1) := by
  rw [bitAt_rotl v s i hs h1 hn]
  split
  next h => rw [Nat.mod_eq_of_lt (by omega), show i - 1 + s + 1 = i + s by omega]
  next h =>
    rw [Nat.mod_eq_sub_mod (by omega), Nat.mod_eq_of_lt (by omega),
      show i - 1 + s - n + 1 = i + s - n by omega]

/-- A rotation as a number: the two shifts joined, without what left at the top (R125). -/
theorem toNat_rotl {n : Nat} (v : BitVec n) (s : Nat) :
    (rotl v s).toNat = (v.toNat <<< s ||| v.toNat >>> (n - s)) % 2 ^ n := by
  have hright : v.toNat >>> (n - s) < 2 ^ n := (v >>> (n - s)).isLt
  rw [rotl, BitVec.toNat_or, BitVec.toNat_shiftLeft, BitVec.toNat_ushiftRight, Nat.or_mod_two_pow,
    Nat.mod_eq_of_lt hright]

/-- Two rotations move each position by the sum of their amounts, modulo the width (R125). -/
theorem rotl_rotl_mod {n : Nat} (v : BitVec n) {a b : Nat} (ha : a ≤ n) (hb : b ≤ n) :
    rotl (rotl v a) b = rotl v ((a + b) % n) := by
  refine eq_of_bitAt_eq fun i h1 hn => ?_
  have hpos : 0 < n := by omega
  have hmod (k : Nat) : k % n < n := Nat.mod_lt k hpos
  rw [bitAt_rotl_mod _ hb h1 hn, bitAt_rotl_mod v ha (Nat.le_add_left 1 _) (hmod _),
    bitAt_rotl_mod v (hmod _).le h1 hn, Nat.add_sub_cancel, Nat.mod_add_mod, Nat.add_mod_mod,
    Nat.add_assoc, Nat.add_comm b a]

/-- Settles O18: the bit form gives the laws, and the two shifts give the number. -/
theorem rotationLaws : Obligations.RotationLaws := fun _ v =>
  ⟨fun _ _ => bitAt_rotl_mod v, fun s _ => toNat_rotl v s, rotl_zero v, rotl_width v,
    fun _ _ => rotl_rotl_mod v⟩

end Sys2Proof.Machine
end

section
/-!
PROOFS. LDKEY at the step level (41_key_schedule.md R150 to R153): its Accept, one KeygenStep,
sixteen of them in a row, and the whole transaction with what the ports show while it runs.
-/

namespace Sys2Proof.Machine

variable {s t : State}

/-! ### Accept and KeygenStep -/

/-- Settles O19: the two cases of Accept. -/
theorem ldkeyAccept : Obligations.LdkeyAccept := by
  refine fun len key s hp => ⟨fun hlen => ?_, fun hlen => ?_⟩
  · rw [exec_idle _ hp, acceptOf, acceptLdkey_badSize len key s hlen]; rfl
  · rw [hlen, exec_idle _ hp, acceptOf, acceptLdkey_ok]; rfl

/-- A KeygenStep uses up no input value of its own. -/
theorem keygenStep_inputs (h : keygenStep s = .next t) : t.inputs = s.inputs := by
  obtain hr | hr := keygenStep_cases h
  · rw [keygenStep_lt hr] at h; cases h; rfl
  · rw [keygenStep_last hr] at h; cases h; rfl

/-- A step of a KEYGEN engine is a KeygenStep, which counts (R29, R151). -/
theorem step_keygen_counts (hp : s.PHASE = .keygen) (hrst : s.now.rst = false)
    (hrnd : s.RND.toNat ≤ 15) :
    ∃ t, step s = .next t ∧ t.PHASE = (if s.RND.toNat = 15 then .resp else .keygen) ∧
      t.RND.toNat = s.RND.toNat + 1 ∧ t.inputs = s.inputs.tail := by
  obtain ⟨t, ht⟩ := keygenStep_answers (s := s.tick) hrnd
  obtain ⟨-, hcount, hphase, -⟩ := keygenStep_counts ht
  simp only [State.tick_PHASE, State.tick_RND, hp] at hphase hcount
  exact ⟨t, (step_keygen hp hrst).trans ht, hphase, hcount, keygenStep_inputs ht⟩

/-- As many KeygenSteps in a row as leave a KEYGEN engine in its phase (R151). -/
theorem run_keygenSteps {n : Nat} (hp : s.PHASE = .keygen) (hn : s.RND.toNat + n ≤ 15)
    (h : ∀ p ∈ s.inputs.take n, p.rst = false) :
    ∃ t, run n s = .next t ∧ t.PHASE = .keygen ∧ t.RND.toNat = s.RND.toNat + n ∧
      t.inputs = s.inputs.drop n := by
  induction n with
  | zero => exact ⟨s, rfl, hp, rfl, rfl⟩
  | succ n ih =>
    obtain ⟨t, hrun, htp, htr, hti⟩ := ih (by omega) fun p hm =>
      h p (List.take_subset_take_left _ n.le_succ hm)
    have hrst : t.now.rst = false := by rw [State.now, hti]; exact headD_drop_rst h n.lt_succ_self
    obtain ⟨u, hstep, hup, hur, hui⟩ := step_keygen_counts htp hrst (by omega)
    refine ⟨u, ?_, ?_, by omega, ?_⟩
    · rw [run_add hrun, run_succ_of_step hstep, run_zero]
    · rw [hup, if_neg (by omega)]
    · rw [hui, hti, List.tail_drop]

/-- One KeygenStep, the last or not (R151). -/
theorem keygenStep_eq (h : s.RND.toNat < 16) :
    keygenStep s = .next
      { s with
        C := rotl s.C (shiftAmount (s.RND.toNat + 1))
        D := rotl s.D (shiftAmount (s.RND.toNat + 1))
        K := s.K.set s.RND.toNat (subkeyOf (rotl s.C (shiftAmount (s.RND.toNat + 1)))
          (rotl s.D (shiftAmount (s.RND.toNat + 1))))
        RND := BitVec.ofNat 5 (s.RND.toNat + 1)
        KV := if s.RND.toNat + 1 = 16 then true else s.KV
        RSP_STATUS := if s.RND.toNat + 1 = 16 then statusOK else s.RSP_STATUS
        RSP_DATA := if s.RND.toNat + 1 = 16 then 0 else s.RSP_DATA
        PHASE := if s.RND.toNat + 1 = 16 then .resp else s.PHASE } := by
  obtain hlt | hlast : s.RND.toNat < 15 ∨ s.RND.toNat = 15 := by omega
  · simp [keygenStep_lt hlt, hlt.ne]
  · simp [keygenStep_last hlast, hlast]

/-- Settles O20: sixteen KeygenSteps are fifteen that stay in KEYGEN and one that leaves it, and one
KeygenStep is `keygenStep_eq`. -/
theorem keygenStepRule : Obligations.KeygenStepRule := by
  refine ⟨fun s hp hr hrst => ?_, fun s h hp hrst => ?_⟩
  · have hzero : s.RND.toNat = 0 := by rw [hr]; rfl
    have hwithin : ∀ n ≤ 15, ∃ t, run n s = .next t ∧ t.PHASE = .keygen ∧ t.RND.toNat = n ∧
        t.now.rst = false := fun n hn => by
      obtain ⟨t, hrun, htp, htr, hti⟩ := run_keygenSteps (n := n) hp (by omega) fun p hm =>
        hrst p (List.take_subset_take_left _ (by omega) hm)
      refine ⟨t, hrun, htp, by omega, ?_⟩
      rw [State.now, hti]
      exact headD_drop_rst hrst (by omega)
    refine ⟨fun n hn => ?_, ?_⟩
    · obtain ⟨t, hrun, htp, -, htrst⟩ := hwithin n (by omega)
      exact ⟨t, hrun, by simp [nextEvent, htp, htrst]⟩
    · obtain ⟨t, hrun, htp, htr, htrst⟩ := hwithin 15 le_rfl
      obtain ⟨u, hstep, hup, -, -⟩ := step_keygen_counts htp htrst htr.le
      exact ⟨u, by rw [run_add hrun (n := 1), run_succ_of_step hstep, run_zero],
        hup.trans (if_pos htr)⟩
  · intro j c d
    rw [step_keygen hp hrst, keygenStep_eq (s := s.tick) h, State.tick_PHASE, hp]
    rfl

/-! ### The whole transaction -/

/-- A well-formed LDKEY as one atomic transition of an idle engine (R153). -/
theorem transact_ldkey (key : Block) (hp : s.PHASE = .idle) :
    transact (.ldkey 8 key) s =
      { s with
        K := keySchedule key, KV := true, C := keyC key 0, D := keyD key 0, RND := 16
        RSP_STATUS := statusOK, RSP_DATA := 0, delivered := s.delivered ++ [⟨statusOK, 0⟩] } := by
  simp [transact, accepted, responseTo, workOf, State.respond, deliver, hp]

/-- A rejected LDKEY as one atomic transition of an idle engine (R153, R216). -/
theorem transact_ldkey_badSize {len : Nat} (key : Block) (hlen : len ≠ 8) (hp : s.PHASE = .idle) :
    transact (.ldkey len key) s =
      { s with
        RSP_STATUS := Rejection.invalidKeySize.code, RSP_DATA := 0
        delivered := s.delivered ++ [⟨Rejection.invalidKeySize.code, 0⟩] } := by
  simp [transact, accepted, responseTo, State.respond, deliver, hp, hlen]

/-- A KEYGEN engine is not ready, shows no response and has no valid key (R26, R33). -/
theorem outputs_keygenAt (key : Block) (s : State) (n : Nat) :
    (keygenAt key s n).outputs =
      { cmdReady := false, rspValid := false, keyValid := false, response := none } := rfl

/-- The Accept of a presented LDKEY and `n` KeygenSteps, not yet the last. -/
theorem run_presented_ldkey {key : Block} {first : PortIn} {ps : List PortIn} {n : Nat}
    (hp : s.PHASE = .idle) (hin : s.inputs = first :: ps) (hfirst : first.rst = false)
    (hvalid : first.cmdValid = true) (hword : first.word = encode (.ldkey 8 key))
    (hps : ∀ p ∈ ps.take 16, p.rst = false) (hn : n ≤ 15) :
    run (n + 1) s = .next (keygenAt key { s with inputs := ps } n) := by
  have hnow : s.now = first := State.now_eq_head s _ _ hin
  have haccept : step s = .next (keygenAt key { s with inputs := ps } 0) := by
    rw [step_presented rfl hp (hnow ▸ hfirst) (hnow ▸ hvalid) (hnow ▸ hword),
      exec_idle (s := s.tick) _ hp, State.tick_eq_tail s _ _ hin, acceptOf,
      acceptLdkey_eq_keygenAt]
  rw [run_succ_of_step haccept]
  exact run_chain fun k hk => step_keygenAt_lt key hps (by omega)

/-- Settles O21: the steps of the command are its atomic transaction, and in between the engine is
one of the sixteen KEYGEN states, which show the same ports. -/
theorem ldkeyTransaction : Obligations.LdkeyTransaction := by
  intro s len key first last waits rest hp hin hlen hfirst hvalid hword hwaits hlast hready
  have hwf : (Instr.ldkey len key).wellFormed = true := decide_eq_true hlen
  have hrun (hcount : waits.length = ownSteps (.ldkey len key) s.KV) :=
    run_transaction hwf hp hin hcount hfirst hvalid hword hwaits hlast hready
  refine ⟨fun h8 h16 => ?_, fun h8 hnil => ?_⟩
  · subst h8
    refine ⟨(hrun h16).trans (congrArg _ (transact_ldkey key hp)), fun n h1 hn => ?_⟩
    obtain ⟨n, rfl⟩ := Nat.exists_eq_add_of_le' h1
    have hps : ∀ p ∈ (waits ++ last :: rest).take 16, p.rst = false := by
      rwa [← h16, List.take_left]
    exact ⟨_, run_presented_ldkey hp hin hfirst hvalid hword hps (by omega), outputs_keygenAt _ _ _⟩
  · have hown : ownSteps (.ldkey len key) s.KV = 0 := by simp [ownSteps, accepted, h8]
    have h := hrun (by rw [hown, hnil]; rfl)
    rw [transactionSteps, hown] at h
    exact h.trans (congrArg _ (transact_ldkey_badSize key h8 hp))

end Sys2Proof.Machine
end

section
/-!
PROOFS. The key schedule as a function of the key (41_key_schedule.md R144 to R155): which key bit each
subkey bit is, that parity positions reach none of them, and the keys whose halves are constant.
-/

namespace Sys2Proof.Machine

/-! ### The sixteen rotations -/

/-- A key half after the first `j` scheduled rotations (R144). -/
def rotated (v : KeyHalf) (j : Nat) : KeyHalf :=
  (List.range' 1 j).foldl (fun w i => rotl w (shiftAmount i)) v

theorem rotated_succ (v : KeyHalf) (j : Nat) :
    rotated v (j + 1) = rotl (rotated v j) (shiftAmount (j + 1)) := by
  rw [rotated, List.range'_1_concat, List.foldl_concat, Nat.add_comm 1 j, rotated]

/-- Settles O22: sixteen scheduled rotations are one full turn, of any half. -/
theorem rotationClosure : Obligations.RotationClosure :=
  ⟨fun v => rotated_closure (rotated_succ v), fun key => ⟨keyC_closure key, keyD_closure key⟩⟩

/-! ### The cumulative form -/

theorem keyC_eq_rotl (key : Block) {j : Nat} (hj : j ≤ 16) :
    keyC key j = rotl (keyC key 0) (shiftTotal j) := rotated_eq (fun _ => rfl) j hj

theorem keyD_eq_rotl (key : Block) {j : Nat} (hj : j ≤ 16) :
    keyD key j = rotl (keyD key 0) (shiftTotal j) := rotated_eq (fun _ => rfl) j hj

/-- Entry `j` of the key schedule is the subkey of round `j + 1` (R145, R147). -/
theorem keySchedule_get (key : Block) (j : Fin 16) :
    (keySchedule key).get j = subkeyOf (keyC key (j + 1)) (keyD key (j + 1)) :=
  Vector.getElem_ofFn j.isLt

/-- Position `p` of a half that starts as 28 positions of `permute(PC1, key)` and is rotated by the
schedule is one fixed bit of the key (R149). -/
theorem bitAt_scheduled {key : Block} {half : Nat → KeyHalf} {first j p : Nat}
    (h : ∀ j, half (j + 1) = rotl (half j) (shiftAmount (j + 1)))
    (h0 : half 0 = positions (permute Table.PC1 key) first 28) (hf : 1 ≤ first) (h29 : first ≤ 29)
    (hj : j ≤ 16) (h1 : 1 ≤ p) (h28 : p ≤ 28) :
    bitAt (half j) p =
      bitAt key (Table.PC1.entries.getD (first - 1 + (p - 1 + shiftTotal j) % 28) 0) := by
  have hlt : (p - 1 + shiftTotal j) % 28 < 28 := Nat.mod_lt _ (by decide)
  rw [rotated_eq h j hj, bitAt_rotl_mod _ (shiftTotal_le j hj) h1 h28, h0,
    bitAt_positions _ _ _ _ hf (by omega) (by omega) (by omega),
    bitAt_permute _ _ _ (by omega) (by omega)]
  congr 2; omega

/-- `C_j⟨p⟩` is one fixed bit of the key (R149). -/
theorem bitAt_keyC (key : Block) {j p : Nat} (hj : j ≤ 16) (h1 : 1 ≤ p) (h28 : p ≤ 28) :
    bitAt (keyC key j) p =
      bitAt key (Table.PC1.entries.getD ((p - 1 + shiftTotal j) % 28) 0) := by
  rw [bitAt_scheduled (half := keyC key) (first := 1) (fun _ => rfl) rfl (by decide) (by decide) hj
    h1 h28, Nat.sub_self, Nat.zero_add]

/-- `D_j⟨p⟩` is one fixed bit of the key (R149). -/
theorem bitAt_keyD (key : Block) {j p : Nat} (hj : j ≤ 16) (h1 : 1 ≤ p) (h28 : p ≤ 28) :
    bitAt (keyD key j) p =
      bitAt key (Table.PC1.entries.getD (28 + (p - 1 + shiftTotal j) % 28) 0) :=
  bitAt_scheduled (half := keyD key) (first := 29) (fun _ => rfl) rfl (by decide) (by decide) hj
    h1 h28

/-- `CUM[j]` of R149 is the sum of the first `j` shifts. -/
theorem cumulativeShifts_eq : ∀ j : Fin 16,
    [1, 2, 4, 6, 8, 10, 12, 14, 15, 17, 19, 21, 23, 25, 27, 28].getD j.val 0 =
      shiftTotal (j + 1) := by decide

/-- Settles O23: position `i` of a subkey is position `PC2[i]` of `C ‖ D`, and that is a fixed bit
of the key. -/
theorem cumulativeSubkeyBits : Obligations.CumulativeSubkeyBits := by
  intro key j cum
  have hcum : cum = shiftTotal (j + 1) := cumulativeShifts_eq j
  have hj : j.val + 1 ≤ 16 := j.isLt
  refine ⟨hcum ▸ keyC_eq_rotl key hj, hcum ▸ keyD_eq_rotl key hj, ?_⟩
  intro i h1 h48 p q
  obtain ⟨hp1, hp56⟩ : 1 ≤ p ∧ p ≤ 56 := entry_inRange Table.PC2 i h1 h48
  rw [keySchedule_get, subkeyOf, bitAt_permute _ _ i h1 h48]
  change bitAt (keyC key (j + 1) ++ keyD key (j + 1)) p = _
  by_cases hp : p ≤ 28
  · have hq : q = (p - 1 + cum) % 28 + 1 := if_pos hp
    rw [bitAt_append_left _ _ p hp, bitAt_keyC key hj hp1 hp, hq, hcum, Nat.add_sub_cancel]
  · have hq : q = 28 + (p - 29 + cum) % 28 + 1 := if_neg hp
    rw [bitAt_append_right _ _ p (by omega) hp56, bitAt_keyD key hj (by omega) (by omega), hq, hcum,
      Nat.add_sub_cancel, Nat.sub_sub]

/-! ### Parity positions -/

/-- `permute(T, v)` reads no position but those `T` lists (R115). -/
theorem permute_congr {n m : Nat} (T : PermTable n m) {v w : BitVec n}
    (h : ∀ p ∈ T.entries, bitAt v p = bitAt w p) : permute T v = permute T w := by
  rw [permute, List.map_congr_left h, permute]

/-- A half that the schedule rotates is fixed by its first value (R144). -/
theorem scheduled_congr {half half' : Nat → KeyHalf}
    (h : ∀ j, half (j + 1) = rotl (half j) (shiftAmount (j + 1)))
    (h' : ∀ j, half' (j + 1) = rotl (half' j) (shiftAmount (j + 1))) (h0 : half 0 = half' 0) :
    half = half' := by
  funext j
  induction j with
  | zero => exact h0
  | succ j ih => rw [h, h', ih]

/-- The key schedule depends on the key through `permute(PC1, key)` alone (R142 to R147). -/
theorem keySchedule_congr {key key' : Block}
    (h : permute Table.PC1 key = permute Table.PC1 key') : keySchedule key = keySchedule key' := by
  have hC : keyC key = keyC key' :=
    scheduled_congr (fun _ => rfl) (fun _ => rfl) (congrArg (positions · 1 28) h)
  have hD : keyD key = keyD key' :=
    scheduled_congr (fun _ => rfl) (fun _ => rfl) (congrArg (positions · 29 28) h)
  rw [keySchedule, hC, hD, keySchedule]

theorem PC1_no_parity : ∀ p ∈ Table.PC1.entries, p % 8 ≠ 0 := by decide

/-- PC1 lists no parity position, so no subkey depends on one (R148). -/
theorem keySchedule_parity {key key' : Block}
    (h : ∀ p, 1 ≤ p → p ≤ 64 → p % 8 ≠ 0 → bitAt key p = bitAt key' p) :
    keySchedule key = keySchedule key' :=
  keySchedule_congr <| permute_congr _ fun p hp =>
    h p (Table.PC1.inRange p hp).1 (Table.PC1.inRange p hp).2 (PC1_no_parity p hp)

/-- Settles O24: equal key schedules give equal results, and Accept of LDKEY looks at `len` only. -/
theorem parityBitsIgnored : Obligations.ParityBitsIgnored := by
  refine ⟨fun key key' h => ?_, fun key s hp => ⟨_, exec_idle _ hp, ?_⟩⟩
  · have hks := keySchedule_parity h
    exact ⟨hks, fun block => by simp only [encrypt, decrypt, hks, and_self]⟩
  · rw [acceptOf, acceptLdkey_ok]

/-! ### Constant halves -/

section
variable {n m : Nat} (b : Bool)

theorem bitAt_fill {i : Nat} (h1 : 1 ≤ i) (hn : i ≤ n) : bitAt (BitVec.fill n b) i = b := by
  simp [bitAt, show n - i < n by omega]

/-- Rotation moves the bits of a constant vector to where they are already. -/
theorem rotl_fill {s : Nat} (hs : s ≤ n) : rotl (BitVec.fill n b) s = BitVec.fill n b :=
  eq_of_bitAt_eq fun i h1 hn => by
    have hmod : (i - 1 + s) % n < n := Nat.mod_lt _ (by omega)
    rw [bitAt_rotl_mod _ hs h1 hn, bitAt_fill b (by omega) (by omega), bitAt_fill b h1 hn]

theorem permute_fill (T : PermTable n m) : permute T (BitVec.fill n b) = BitVec.fill m b :=
  eq_of_bitAt_eq fun i h1 hm => by
    obtain ⟨hpos, hle⟩ := entry_inRange T i h1 hm
    rw [bitAt_permute T _ i h1 hm, bitAt_fill b hpos hle, bitAt_fill b h1 hm]

theorem positions_fill {first len : Nat} (hf : 1 ≤ first) (hn : first + len ≤ n + 1) :
    positions (BitVec.fill n b) first len = BitVec.fill len b :=
  eq_of_bitAt_eq fun i h1 hl => by
    rw [bitAt_positions _ _ _ _ hf h1 hl hn, bitAt_fill b (by omega) (by omega), bitAt_fill b h1 hl]

theorem fill_append_fill : BitVec.fill n b ++ BitVec.fill m b = BitVec.fill (n + m) b :=
  eq_of_bitAt_eq fun i h1 hnm => by
    rw [bitAt_fill b h1 hnm]
    by_cases hi : i ≤ n
    · rw [bitAt_append_left _ _ i hi, bitAt_fill b h1 hi]
    · rw [bitAt_append_right _ _ i (by omega) hnm, bitAt_fill b (by omega) (by omega)]

end

theorem shiftAmount_le (j : Nat) : shiftAmount j ≤ 28 := by
  have hentries : ∀ k < 16, Table.SHIFT.getD k 0 ≤ 28 := by decide
  obtain hlt | hge := Nat.lt_or_ge (j - 1) 16
  · exact hentries _ hlt
  · rw [shiftAmount, List.getD_eq_default _ _ hge]; omega

/-- A constant half stays as it is through the whole schedule (R155). -/
theorem rotated_fill {half : Nat → KeyHalf} {b : Bool}
    (h : ∀ j, half (j + 1) = rotl (half j) (shiftAmount (j + 1))) (h0 : half 0 = BitVec.fill 28 b) :
    ∀ j, half j = BitVec.fill 28 b
  | 0 => h0
  | j + 1 => by rw [h, rotated_fill h h0 j, rotl_fill b (shiftAmount_le _)]

/-- The two values of a constant half, as R155 writes them. -/
theorem eq_fill_of_constant {v : KeyHalf} (h : v = 0 ∨ v = 0xFFFFFFF) :
    ∃ b, v = BitVec.fill 28 b :=
  h.elim (fun h0 => ⟨false, h0⟩) fun h1 => ⟨true, h1.trans (by decide)⟩

/-- Constant halves give the same subkey in every round. -/
theorem keySchedule_get_of_constant {key : Block} {a b : Bool} (hC : keyC key 0 = BitVec.fill 28 a)
    (hD : keyD key 0 = BitVec.fill 28 b) (i : Fin 16) :
    (keySchedule key).get i = subkeyOf (BitVec.fill 28 a) (BitVec.fill 28 b) := by
  rw [keySchedule_get, rotated_fill (fun _ => rfl) hC, rotated_fill (fun _ => rfl) hD]

theorem keyC_fill (b : Bool) : ∀ j, keyC (BitVec.fill 64 b) j = BitVec.fill 28 b :=
  rotated_fill (fun _ => rfl) (by rw [keyC, permute_fill, positions_fill b (by omega) (by omega)])

theorem keyD_fill (b : Bool) : ∀ j, keyD (BitVec.fill 64 b) j = BitVec.fill 28 b :=
  rotated_fill (fun _ => rfl) (by rw [keyD, permute_fill, positions_fill b (by omega) (by omega)])

/-- The subkeys of the zero key and of the all-one key (R155). -/
theorem keySchedule_fill (b : Bool) (i : Fin 16) :
    (keySchedule (BitVec.fill 64 b)).get i = BitVec.fill 48 b := by
  rw [keySchedule_get_of_constant (keyC_fill b 0) (keyD_fill b 0), subkeyOf, fill_append_fill,
    permute_fill]

theorem allOnes_eq_fill : (0xFFFFFFFFFFFFFFFF : Block) = BitVec.fill 64 true := by decide

/-- A key with nothing but parity bits gives the zero key's subkeys (R148, R155). -/
theorem keySchedule_parityOnly : keySchedule 0x0101010101010101 = keySchedule 0 := by
  have hbits : ∀ p < 65, p % 8 ≠ 0 →
      bitAt (0x0101010101010101 : Block) p = bitAt (0 : Block) p := by decide
  exact keySchedule_parity fun p _ h64 => hbits p (by omega)

/-- With equal subkeys their order does not matter (R199). -/
theorem roundHalves_of_equal_subkeys {ks : RoundKeySet} (h : ∀ i j : Fin 16, ks.get i = ks.get j)
    (block : Block) : ∀ n ≤ 16, roundHalves ks false block n = roundHalves ks true block n
  | 0, _ => rfl
  | n + 1, hn => by
    rw [roundHalves_succ _ _ _ hn, roundHalves_succ _ _ _ hn,
      roundHalves_of_equal_subkeys h block n (by omega), h (subkeyIndex false ⟨n, hn⟩)]

theorem desBlock_of_equal_subkeys {ks : RoundKeySet} (h : ∀ i j : Fin 16, ks.get i = ks.get j)
    (block : Block) : desBlock ks block false = desBlock ks block true :=
  congrArg finalBlock (roundHalves_of_equal_subkeys h block 16 le_rfl)

/-- Settles O25: rotation and `permute` keep a constant vector constant, the parity-only key has the
zero key's schedule, and equal subkeys make the two directions one. -/
theorem constantKeyCorners : Obligations.ConstantKeyCorners := by
  refine ⟨fun j => ⟨keyC_fill false j, keyD_fill false j⟩, fun j => ?_, fun i => ?_,
    fun key hC hD => ?_⟩
  · rw [allOnes_eq_fill, keyC_fill, keyD_fill]
    decide
  · have hzero : (keySchedule 0).get i = 0 := keySchedule_fill false i
    rw [keySchedule_parityOnly, allOnes_eq_fill, keySchedule_fill]
    exact ⟨hzero, hzero, by decide⟩
  · obtain ⟨a, ha⟩ := eq_fill_of_constant hC
    obtain ⟨b, hb⟩ := eq_fill_of_constant hD
    have hequal : ∀ i j, (keySchedule key).get i = (keySchedule key).get j := fun i j => by
      rw [keySchedule_get_of_constant ha hb, keySchedule_get_of_constant ha hb]
    exact ⟨hequal, desBlock_of_equal_subkeys hequal⟩

end Sys2Proof.Machine
end

section
/-!
PROOFS. The round function F (42_round_function.md R160 to R173): F as a function of `EX xor K`, its
complement law, the S-boxes as total lookups, and the worked values.
-/

namespace Sys2Proof.Machine

/-! ### Expansion and key mixing -/

theorem expand_xor (a b : Half) : expand (a ^^^ b) = expand a ^^^ expand b :=
  permuteDistributesOverXor _ _ Table.E a b

theorem mixKey_xor (a b : Half) (k l : Subkey) :
    mixKey (a ^^^ b) (k ^^^ l) = mixKey a k ^^^ mixKey b l := by
  rw [mixKey, mixKey, mixKey, expand_xor]
  ac_rfl

/-- Adding `a` to R and `permute(E, a)` to K changes the same bits of `EX xor K` twice (R171). -/
theorem mixKey_xor_expand (r a : Half) (k : Subkey) :
    mixKey (r ^^^ a) (k ^^^ expand a) = mixKey r k := by
  have hself : mixKey a (expand a) = 0#48 := BitVec.xor_self
  rw [mixKey_xor, hself, BitVec.xor_zero]

/-- F reads R and K through `EX xor K` alone (R169, R171). -/
theorem roundF_congr {r r' : Half} {k k' : Subkey} (h : mixKey r k = mixKey r' k') :
    roundF r k = roundF r' k' := by
  rw [roundF, h, roundF]

theorem roundF_xor_expand (r a : Half) (k : Subkey) :
    roundF (r ^^^ a) (k ^^^ expand a) = roundF r k :=
  roundF_congr (mixKey_xor_expand r a k)

/-- The complement law is the case `a` = all ones, whose expansion is all ones (R171). -/
theorem roundF_not_not (r : Half) (k : Subkey) : roundF (~~~r) (~~~k) = roundF r k := by
  have hE : expand (BitVec.allOnes 32) = BitVec.allOnes 48 := permute_fill true Table.E
  rw [← BitVec.xor_allOnes, ← BitVec.xor_allOnes, ← hE, roundF_xor_expand]

/-- Three inputs whose values under substitution do not add up to the value of their sum, so
substitution is not even affine (R171). -/
theorem substitute_not_affine :
    substitute (0 ^^^ 1 ^^^ 2) ≠ substitute 0 ^^^ substitute 1 ^^^ substitute 2 := by decide

/-- Settles O28: expansion and P are tables, and F is a function of `EX xor K`, to which equal
changes on both sides cancel. -/
theorem roundFunctionDependsOnSum : Obligations.RoundFunctionDependsOnSum :=
  ⟨fun a b => ⟨expand_xor a b, permuteDistributesOverXor _ _ Table.P a b⟩, mixKey_xor,
    ⟨0, 1, 2, substitute_not_affine⟩, fun r a k => (roundF_xor_expand r a k).symm, roundF_not_not⟩

/-! ### The S-boxes -/

/-- `v⟨i⟩` as a number: the binary digit of weight `2^(n-i)` (R10). -/
theorem toNat_bitAt {n : Nat} (v : BitVec n) (i : Nat) :
    (bitAt v i).toNat = v.toNat / 2 ^ (n - i) % 2 :=
  Nat.toNat_testBit _ _

/-- The row is the first and the last of the six digits (R165, R168). -/
theorem sboxRow_eq (g : BitVec 6) : sboxRow g = 2 * (g.toNat / 32) + g.toNat % 2 := by
  simp only [sboxRow, toNat_bitAt]
  omega

/-- The column is the four digits between them (R165, R168). -/
theorem sboxColumn_eq (g : BitVec 6) : sboxColumn g = g.toNat / 2 % 16 := by
  simp only [sboxColumn, toNat_bitAt]
  omega

theorem sboxRow_le (g : BitVec 6) : sboxRow g ≤ 3 := by
  rw [sboxRow_eq]
  omega

theorem sboxColumn_le (g : BitVec 6) : sboxColumn g ≤ 15 := by
  rw [sboxColumn_eq]
  omega

/-- Each of the 32 rows is a permutation of 0..15 (R170). -/
theorem sboxRow_perm : ∀ i < 8, ∀ r < 4,
    ((Table.SBOX.getD i []).getD r []).Perm (List.range 16) := by decide

/-- A row that permutes 0..15 answers every column of 0..15 with a nibble, whatever the default. -/
theorem getD_of_perm_range {row : List Nat} (h : row.Perm (List.range 16)) {col : Nat}
    (hcol : col < 16) (d d' : Nat) : row.getD col d = row.getD col d' ∧ row.getD col d < 16 := by
  have hlt : col < row.length := by rwa [h.length_eq, List.length_range]
  rw [List.getD_eq_getElem _ d hlt, List.getD_eq_getElem _ d' hlt]
  exact ⟨rfl, List.mem_range.mp (h.mem_iff.mp (List.getElem_mem hlt))⟩

/-- Every lookup of the engine finds a nibble of its box's row (R170). -/
theorem sboxEntry_inRange {i : Nat} (hi : i < 8) (g : BitVec 6) :
    sboxEntry i (sboxRow g) (sboxColumn g) =
        ((Table.SBOX.getD i []).getD (sboxRow g) []).getD (sboxColumn g) 16 ∧
      sboxEntry i (sboxRow g) (sboxColumn g) < 16 :=
  getD_of_perm_range (sboxRow_perm i hi _ (Nat.lt_succ_of_le (sboxRow_le g)))
    (Nat.lt_succ_of_le (sboxColumn_le g)) 0 16

/-- `N_i` is the table's entry, not cut down to four bits (R165, R170). -/
theorem toNat_sbox {i : Nat} (hi : i < 8) (g : BitVec 6) :
    (sbox i g).toNat = sboxEntry i (sboxRow g) (sboxColumn g) :=
  Nat.mod_eq_of_lt (sboxEntry_inRange hi g).2

/-- Settles O26: row and column are read off the six digits, and the rows permute 0..15. -/
theorem sboxLookupsInRange : Obligations.SboxLookupsInRange := fun i hi =>
  ⟨fun g => ⟨sboxRow_le g, sboxColumn_le g, (toNat_sbox hi g).trans (sboxEntry_inRange hi g).1⟩,
    sboxRow_perm i hi⟩

/-- Settles O27: the flat form splits the number of the group into the same row and column. -/
theorem flatSboxAgrees : Obligations.FlatSboxAgrees := fun i hi g => by
  rw [toNat_sbox hi, sboxRow_eq, sboxColumn_eq, sboxFlat]

/-! ### Worked values -/

/-- F in the three stages of R169: the mixed input, the outputs of the S-boxes, the value. -/
theorem roundF_of_stages {r s f : Half} {k x : Subkey} (hX : mixKey r k = x)
    (hS : substitute x = s) (hP : permute Table.P s = f) :
    substitute (mixKey r k) = s ∧ roundF r k = f := by
  rw [roundF, hX, hS]
  exact ⟨rfl, hP⟩

theorem roundF_zero_zero :
    substitute (mixKey 0x00000000 0x000000000000) = 0xEFA72C4D ∧
      roundF 0x00000000 0x000000000000 = 0xD8D8DBBC :=
  roundF_of_stages (x := 0x000000000000) (by decide) (by decide) (by decide)

theorem roundF_ones_zero :
    substitute (mixKey 0xFFFFFFFF 0x000000000000) = 0xD9CE3DCB ∧
      roundF 0xFFFFFFFF 0x000000000000 = 0x38DBF9CB :=
  roundF_of_stages (x := 0xFFFFFFFFFFFF) (by decide) (by decide) (by decide)

/-- Settles O29: rows 1, 2 and 5 are computed stage by stage; rows 3 and 4 are the complements of
rows 2 and 1. -/
theorem roundFunctionWorkedValues : Obligations.RoundFunctionWorkedValues := by
  have hX : mixKey 0xF0AAF0AA 0x1B02EFFC7072 = 0x6117BA866527 := by decide
  have hS : substitute 0x6117BA866527 = 0x5C82B597 := by decide
  exact ⟨roundF_zero_zero, roundF_ones_zero,
    (roundF_not_not 0xFFFFFFFF 0).trans roundF_ones_zero.2,
    (roundF_not_not 0 0).trans roundF_zero_zero.2,
    by decide, hX, hS, (roundF_of_stages hX hS (by decide)).2⟩

end Sys2Proof.Machine
end

section
/-!
PROOFS. The Feistel network as a function (43_cipher_engine.md R180 to R186): the two directions undo
each other (R197), equal subkeys make them one (R199), complements go through (R200), and the
known-answer vector (R201).
-/

namespace Sys2Proof.Machine

/-! ### Halves of a vector -/

theorem positions_append_left {n m : Nat} (a : BitVec n) (b : BitVec m) :
    positions (a ++ b) 1 n = a :=
  eq_of_bitAt_eq fun i h1 hn => by
    rw [bitAt_positions _ _ _ _ le_rfl h1 hn (by omega), Nat.add_sub_cancel_left,
      bitAt_append_left _ _ _ hn]

theorem positions_append_right {n m : Nat} (a : BitVec n) (b : BitVec m) :
    positions (a ++ b) (n + 1) m = b :=
  eq_of_bitAt_eq fun i h1 hm => by
    rw [bitAt_positions _ _ _ _ (by omega) h1 hm (by omega),
      bitAt_append_right _ _ _ (by omega) (by omega)]
    congr 1; omega

theorem positions_append_positions {n m : Nat} (v : BitVec (n + m)) :
    positions v 1 n ++ positions v (n + 1) m = v :=
  eq_of_bitAt_eq fun i h1 hnm => by
    by_cases hn : i ≤ n
    · rw [bitAt_append_left _ _ _ hn, bitAt_positions _ _ _ _ le_rfl h1 hn (by omega),
        Nat.add_sub_cancel_left]
    · rw [bitAt_append_right _ _ _ (by omega) hnm,
        bitAt_positions _ _ _ _ (by omega) (by omega) (by omega) (by omega)]
      congr 1; omega

/-! ### The two ends of the network -/

/-- IP takes the final step back: it gives the last halves, swapped (R119, R181, R184). -/
theorem initialHalves_finalBlock (lr : Half × Half) : initialHalves (finalBlock lr) = lr.swap := by
  have hIP : permute Table.IP (finalBlock lr) = lr.2 ++ lr.1 :=
    (finalPermutationInvertsInitial _).2
  rw [initialHalves, hIP]
  exact Prod.ext (positions_append_left lr.2 lr.1) (positions_append_right lr.2 lr.1)

/-- The final step on the first halves, swapped, gives the block back. -/
theorem finalBlock_initialHalves (block : Block) : finalBlock (initialHalves block).swap = block := by
  have hjoin : (initialHalves block).1 ++ (initialHalves block).2 = permute Table.IP block :=
    positions_append_positions (n := 32) (m := 32) _
  rw [finalBlock, Prod.snd_swap, Prod.fst_swap, hjoin, (finalPermutationInvertsInitial block).1]

/-- Every pair of halves is (`L_0`, `R_0`) of some block. -/
theorem exists_initialHalves (lr : Half × Half) : ∃ block, initialHalves block = lr :=
  ⟨finalBlock lr.swap, initialHalves_finalBlock lr.swap⟩

/-! ### Decryption undoes encryption -/

/-- A round undoes itself between two swaps: the same F is added twice (R197). -/
theorem feistelRound_swap (k : Subkey) (lr : Half × Half) :
    feistelRound k (feistelRound k lr).swap = lr.swap := by
  refine Prod.ext rfl ?_
  change lr.1 ^^^ roundF lr.2 k ^^^ roundF lr.2 k = lr.1
  rw [BitVec.xor_assoc, BitVec.xor_self, BitVec.xor_zero]

/-- Round `n + 1` as one application of `feistelRound` (R182). -/
theorem roundHalves_succ_feistelRound (ks : RoundKeySet) (dec : Bool) (block : Block) {n : Nat}
    (h : n < 16) :
    roundHalves ks dec block (n + 1) =
      feistelRound (ks.get (subkeyIndex dec ⟨n, h⟩)) (roundHalves ks dec block n) :=
  roundHalves_succ ks dec block h

/-- The reverse direction uses in its round `n + 1` the subkey of round `m + 1` (R183). -/
theorem subkeyIndex_not (dec : Bool) {m n : Nat} (hm : m < 16) (hn : n < 16) (h : m + n = 15) :
    subkeyIndex (!dec) ⟨n, hn⟩ = subkeyIndex dec ⟨m, hm⟩ := by
  cases dec with
  | false => exact Fin.ext (show 15 - n = m by omega)
  | true => exact Fin.ext (show n = 15 - m by omega)

/-- After `n` rounds the reverse direction has undone `n` of the sixteen: it has the halves after the
first `m`, swapped (R197). -/
theorem roundHalves_reverse (ks : RoundKeySet) (dec : Bool) (block : Block) {m n : Nat}
    (h : m + n = 16) :
    roundHalves ks (!dec) (desBlock ks block dec) n = (roundHalves ks dec block m).swap := by
  induction n generalizing m with
  | zero =>
    obtain rfl : m = 16 := h
    exact initialHalves_finalBlock _
  | succ n ih =>
    rw [roundHalves_succ_feistelRound _ _ _ (by omega), ih (m := m + 1) (by omega),
      roundHalves_succ_feistelRound ks dec block (by omega),
      subkeyIndex_not dec (m := m) (by omega) (by omega) (by omega), feistelRound_swap]

/-- One direction undoes the other, whatever the subkeys (R197). -/
theorem desBlock_desBlock_not (ks : RoundKeySet) (block : Block) (dec : Bool) :
    desBlock ks (desBlock ks block dec) (!dec) = block := by
  rw [desBlock, roundHalves_reverse ks dec block (Nat.zero_add 16)]
  exact finalBlock_initialHalves block

/-- Settles O33: the sixteen rounds are undone one by one, the last one first. -/
theorem roundTrip : Obligations.RoundTrip :=
  ⟨fun key block => ⟨desBlock_desBlock_not (keySchedule key) block false,
    desBlock_desBlock_not (keySchedule key) block true⟩, desBlock_desBlock_not⟩

/-! ### Equal subkeys -/

/-- Settles O34: with equal subkeys the two directions are one, so ENC is undone by itself; the
parity-only key has the zero key's subkeys, all zero. -/
theorem equalSubkeysSelfInverse : Obligations.EqualSubkeysSelfInverse := by
  refine ⟨fun ks h block => ⟨desBlock_of_equal_subkeys h block, ?_⟩, fun i j => ?_⟩
  · rw [desBlock_of_equal_subkeys h (desBlock ks block false)]
    exact desBlock_desBlock_not ks block false
  · rw [keySchedule_parityOnly]
    exact (keySchedule_fill false i).trans (keySchedule_fill false j).symm

/-! ### Complements -/

theorem permute_not {n m : Nat} (T : PermTable n m) (v : BitVec n) :
    permute T (~~~v) = ~~~(permute T v) :=
  eq_of_bitAt_eq fun i h1 hm => by
    obtain ⟨hpos, hle⟩ := entry_inRange T i h1 hm
    rw [bitAt_permute T _ i h1 hm, bitAt_not _ _ hpos hle, bitAt_not _ _ h1 hm,
      bitAt_permute T v i h1 hm]

theorem positions_not {n : Nat} (v : BitVec n) {first len : Nat} (hf : 1 ≤ first)
    (hn : first + len ≤ n + 1) : positions (~~~v) first len = ~~~(positions v first len) :=
  eq_of_bitAt_eq fun i h1 hl => by
    rw [bitAt_positions _ _ _ _ hf h1 hl hn, bitAt_not _ _ (by omega) (by omega),
      bitAt_not _ _ h1 hl, bitAt_positions _ _ _ _ hf h1 hl hn]

theorem rotl_not {n : Nat} (v : BitVec n) {a : Nat} (ha : a ≤ n) : rotl (~~~v) a = ~~~(rotl v a) :=
  eq_of_bitAt_eq fun i h1 hn => by
    have hmod : (i - 1 + a) % n < n := Nat.mod_lt _ (by omega)
    rw [bitAt_rotl_mod _ ha h1 hn, bitAt_not _ _ (by omega) (by omega), bitAt_not _ _ h1 hn,
      bitAt_rotl_mod _ ha h1 hn]

/-- The schedule rotates a complemented half as it rotates the half (R144). -/
theorem rotated_not {half half' : Nat → KeyHalf}
    (h : ∀ j, half (j + 1) = rotl (half j) (shiftAmount (j + 1)))
    (h' : ∀ j, half' (j + 1) = rotl (half' j) (shiftAmount (j + 1))) (h0 : half' 0 = ~~~(half 0)) :
    ∀ j, half' j = ~~~(half j)
  | 0 => h0
  | j + 1 => by rw [h, h', rotated_not h h' h0 j, rotl_not _ (shiftAmount_le _)]

theorem keyC_not (key : Block) : ∀ j, keyC (~~~key) j = ~~~(keyC key j) :=
  rotated_not (fun _ => rfl) (fun _ => rfl) <| by
    rw [keyC, permute_not, positions_not _ (by omega) (by omega), keyC]

theorem keyD_not (key : Block) : ∀ j, keyD (~~~key) j = ~~~(keyD key j) :=
  rotated_not (fun _ => rfl) (fun _ => rfl) <| by
    rw [keyD, permute_not, positions_not _ (by omega) (by omega), keyD]

/-- A complemented key has the complemented subkeys. -/
theorem keySchedule_not (key : Block) (i : Fin 16) :
    (keySchedule (~~~key)).get i = ~~~((keySchedule key).get i) := by
  rw [keySchedule_get, keySchedule_get, keyC_not, keyD_not, subkeyOf, ← BitVec.not_append,
    permute_not, subkeyOf]

/-- Both halves with every bit inverted. -/
def notHalves (lr : Half × Half) : Half × Half := (~~~lr.1, ~~~lr.2)

theorem initialHalves_not (block : Block) :
    initialHalves (~~~block) = notHalves (initialHalves block) := by
  rw [initialHalves, permute_not, positions_not _ (by omega) (by omega),
    positions_not _ (by omega) (by omega)]
  rfl

theorem finalBlock_notHalves (lr : Half × Half) : finalBlock (notHalves lr) = ~~~(finalBlock lr) := by
  rw [finalBlock, notHalves, ← BitVec.not_append, permute_not, finalBlock]

/-- Inverting the subkey as well leaves F alone, so a round inverts just what it is given (R200). -/
theorem feistelRound_notHalves (k : Subkey) (lr : Half × Half) :
    feistelRound (~~~k) (notHalves lr) = notHalves (feistelRound k lr) := by
  simp only [feistelRound, notHalves, roundF_not_not, BitVec.not_xor_left]

theorem roundHalves_not {ks ks' : RoundKeySet} (h : ∀ i : Fin 16, ks'.get i = ~~~(ks.get i))
    (dec : Bool) (block : Block) :
    ∀ n ≤ 16, roundHalves ks' dec (~~~block) n = notHalves (roundHalves ks dec block n)
  | 0, _ => initialHalves_not block
  | n + 1, hn => by
    rw [roundHalves_succ_feistelRound _ _ _ hn, roundHalves_succ_feistelRound _ _ _ hn,
      roundHalves_not h dec block n (by omega), h, feistelRound_notHalves]

/-- Settles O35: the complement goes through the key schedule, through every round and through both
permutations. -/
theorem complementation : Obligations.Complementation := fun key block => by
  rw [encrypt, desBlock, roundHalves_not (keySchedule_not key) false block 16 le_rfl,
    finalBlock_notHalves]
  rfl

/-! ### The known-answer vector -/

/-- Settles O36: the sixteen rounds evaluated (R201), and the final step on `R_16 ‖ L_16`. -/
theorem knownAnswer : Obligations.KnownAnswer := by
  have hrounds : roundHalves (keySchedule 0x133457799BBCDFF1) false 0x0123456789ABCDEF 16 =
      (0x43423234, 0x0A4CD995) := by decide +kernel
  have hfinal : finalBlock (0x43423234, 0x0A4CD995) = 0x85E813540F0AB405 := by decide +kernel
  rw [Obligations.KnownAnswer, encrypt, desBlock, hrounds, hfinal]

end Sys2Proof.Machine
end
section
/-!
PROOFS. ENC and DEC at the step level (43_cipher_engine.md R190 to R196): their Accept, one RoundStep,
sixteen of them in a row, the whole transaction with what the ports show while it runs, and a session
of three commands.
-/

namespace Sys2Proof.Machine

variable {s t : State}

/-! ### Accept -/

/-- The two bits above an encoded command's length are its opcode (R81). -/
theorem getLsbD_encode_opcode (i : Instr) (k : Nat) :
    (encode i).getLsbD (68 + k) = i.opcode.getLsbD k := by
  rw [encode, getLsbD_fields, if_neg (by omega), if_neg (by omega),
    show 68 + k - 64 - 4 = k by omega]

/-- `op[1]` marks a block command and `op[0]` is its direction (R82). -/
theorem opcode_blockCommand (dec : Bool) (len : Nat) (block : Block) :
    (blockCommand dec len block).opcode.getLsbD 1 = true ∧
      (blockCommand dec len block).opcode.getLsbD 0 = dec := by
  cases dec <;> simp [blockCommand, Instr.opcode]

theorem exec_blockCommand (dec : Bool) (len : Nat) (block : Block) (hp : s.PHASE = .idle) :
    exec (blockCommand dec len block) s = .next (acceptBlock dec len block s) := by
  rw [exec_idle _ hp, acceptOf_blockCommand]

/-- Settles O30: the opcode bits of the word, and the three cases of Accept. -/
theorem blockAccept : Obligations.BlockAccept := by
  intro dec len block s hp command
  have hexec : exec command s = .next (acceptBlock dec len block s) :=
    exec_blockCommand dec len block hp
  obtain ⟨hblock, hdec⟩ := opcode_blockCommand dec len block
  refine ⟨⟨(getLsbD_encode_opcode command 1).trans hblock,
    (getLsbD_encode_opcode command 0).trans hdec⟩,
    fun hlen => ?_, fun hlen hkv => ?_, fun hlen hkv => ?_⟩
  · rw [hexec, acceptBlock_badSize dec len block s hlen]; rfl
  · rw [hexec, hlen, acceptBlock_noKey dec block s hkv]; rfl
  · rw [hexec, hlen, acceptBlock_ok dec block s hkv]; rfl

/-! ### RoundStep -/

/-- One RoundStep, the last or not (R193, R194). -/
theorem roundStep_eq (h : s.RND.toNat < 16) :
    roundStep s = .next
      { s with
        L := s.R
        R := s.L ^^^ roundF s.R (s.K.get (subkeyIndex s.DEC ⟨s.RND.toNat, h⟩))
        RND := BitVec.ofNat 5 (s.RND.toNat + 1)
        RSP_STATUS := if s.RND.toNat + 1 = 16 then statusOK else s.RSP_STATUS
        RSP_DATA := if s.RND.toNat + 1 = 16 then
          permute Table.FP
            ((s.L ^^^ roundF s.R (s.K.get (subkeyIndex s.DEC ⟨s.RND.toNat, h⟩))) ++ s.R)
          else s.RSP_DATA
        PHASE := if s.RND.toNat + 1 = 16 then .resp else s.PHASE } := by
  obtain hlt | hlast : s.RND.toNat < 15 ∨ s.RND.toNat = 15 := by omega
  · simp [roundStep_lt hlt, hlt.ne]
  · simp [roundStep_last hlast, hlast]

/-- The subkey of round `n + 1`, by the direction (R183, R193). -/
theorem get_subkeyIndex (ks : RoundKeySet) (dec : Bool) {n : Nat} (h : n < 16) :
    ks.get (subkeyIndex dec ⟨n, h⟩) = if dec then ks[15 - n] else ks[n] := by
  cases dec <;> rfl

/-- The only event of a ROUNDS engine that is not reset (R28). -/
theorem nextEvent_rounds (hp : s.PHASE = .rounds) (hrst : s.now.rst = false) :
    nextEvent s = .roundStep := by
  simp [nextEvent, hp, hrst]

/-- A ROUNDS engine with no RoundStep done is at the start of the rounds of some block: every pair of
halves is (`L_0`, `R_0`) of one. -/
theorem exists_roundsAt_zero_eq (hp : s.PHASE = .rounds) (hr : s.RND = 0) :
    ∃ block, roundsAt s.DEC block s 0 = s := by
  obtain ⟨block, hLR⟩ := exists_initialHalves (s.L, s.R)
  have hzero : BitVec.ofNat 5 0 = s.RND := hr.symm
  exact ⟨block, by rw [roundsAt, roundHalves, hLR, hzero, ← hp, List.drop_zero]⟩

/-- Settles O31: the sixteen steps are those of a block that starts with these halves, and one
RoundStep is `roundStep_eq`. -/
theorem roundStepRule : Obligations.RoundStepRule := by
  refine ⟨fun s hp hr hrst => ?_, fun s h hp hrst => ?_⟩
  · obtain ⟨block, hstart⟩ := exists_roundsAt_zero_eq hp hr
    have hstep : ∀ k < 15, step (roundsAt s.DEC block s k) =
        .next (roundsAt s.DEC block s (k + 1)) := fun _ => step_roundsAt_lt s.DEC block hrst
    refine ⟨fun n hn => ⟨roundsAt s.DEC block s n, ?_, ?_⟩, roundsDone s.DEC block s, ?_, rfl⟩
    · have hrun := run_chain (n := n) fun k hk => hstep k (by omega)
      rwa [hstart] at hrun
    · have hnow : (roundsAt s.DEC block s n).now.rst = false := headD_drop_rst hrst hn
      exact nextEvent_rounds rfl hnow
    · have hrun := run_sixteen hstep (step_roundsAt_last s.DEC block hrst)
      rwa [hstart] at hrun
  · intro i k l r
    have hk : s.K.get (subkeyIndex s.DEC ⟨s.RND.toNat, h⟩) = k := get_subkeyIndex s.K s.DEC h
    refine ⟨fun block hLR => ?_, ?_⟩
    · rw [roundHalves_succ s.K s.DEC block h, ← hLR, hk]
    · rw [step_rounds hp hrst, roundStep_eq (s := s.tick) h, State.tick_PHASE, hp]
      simp only [State.tick_K, State.tick_DEC, State.tick_RND, hk]
      rfl

/-! ### The whole transaction -/

/-- A rejected command takes two steps, Accept and Deliver, and leaves its response and nothing else
(R196, R216, R219). -/
theorem run_rejected {i : Instr} {first last : PortIn} {rest : List PortIn} {r : Response}
    (hwf : i.wellFormed = true) (hp : s.PHASE = .idle) (hin : s.inputs = first :: last :: rest)
    (hfirst : first.rst = false) (hvalid : first.cmdValid = true) (hword : first.word = encode i)
    (hlast : last.rst = false) (hready : last.rspReady = true) (h : accepted i s.KV = false)
    (hr : responseTo i s.KV s.K = r) :
    run 2 s = .next { s with
      RSP_STATUS := r.status, RSP_DATA := r.data, inputs := rest
      delivered := s.delivered ++ [r] } := by
  have hown : ownSteps i s.KV = 0 := by simp [ownSteps, h]
  have hrun := run_transaction (waits := []) hwf hp hin hown.symm hfirst hvalid hword
    (fun _ hp => absurd hp List.not_mem_nil) hlast hready
  rw [transactionSteps, hown] at hrun
  refine hrun.trans (congrArg _ ?_)
  simp [transact, h, hr, State.respond, deliver, hp]

/-- A block command that is not rejected as one atomic transition of an idle engine (R196). -/
theorem transact_blockCommand (dec : Bool) (block : Block) (hp : s.PHASE = .idle)
    (hkv : s.KV = true) :
    transact (blockCommand dec 8 block) s =
      { s with
        L := (roundHalves s.K dec block 16).1, R := (roundHalves s.K dec block 16).2
        DEC := dec, RND := 16
        RSP_STATUS := statusOK, RSP_DATA := desBlock s.K block dec
        delivered := s.delivered ++ [⟨statusOK, desBlock s.K block dec⟩] } := by
  simp [transact, accepted_blockCommand, responseTo_blockCommand, workOf_blockCommand,
    State.respond, deliver, hp, hkv]

theorem wellFormed_blockCommand_of_le (dec : Bool) {len : Nat} (block : Block) (h : len ≤ 15) :
    (blockCommand dec len block).wellFormed = true := by
  cases dec <;> exact decide_eq_true h

/-- A ROUNDS engine is not ready and shows no response (R33). -/
theorem outputs_roundsAt (dec : Bool) (block : Block) (s : State) (n : Nat) :
    (roundsAt dec block s n).outputs =
      { cmdReady := false, rspValid := false, keyValid := s.KV, response := none } := rfl

/-- The Accept of a presented block command and `n` RoundSteps, not yet the last. -/
theorem run_presented_blockCommand {dec : Bool} {block : Block} {first : PortIn}
    {ps : List PortIn} {n : Nat} (hp : s.PHASE = .idle) (hkv : s.KV = true)
    (hin : s.inputs = first :: ps) (hfirst : first.rst = false) (hvalid : first.cmdValid = true)
    (hword : first.word = encode (blockCommand dec 8 block))
    (hps : ∀ p ∈ ps.take 16, p.rst = false) (hn : n ≤ 15) :
    run (n + 1) s = .next (roundsAt dec block { s with inputs := ps } n) := by
  have hnow : s.now = first := State.now_eq_head s _ _ hin
  have haccept : step s = .next (roundsAt dec block { s with inputs := ps } 0) := by
    rw [step_presented (wellFormed_blockCommand dec block) hp (hnow ▸ hfirst) (hnow ▸ hvalid)
      (hnow ▸ hword), exec_blockCommand (s := s.tick) dec 8 block hp,
      State.tick_eq_tail s _ _ hin, acceptBlock_eq_roundsAt (s := { s with inputs := ps }) _ _ hkv]
  rw [run_succ_of_step haccept]
  exact run_chain fun k hk => step_roundsAt_lt dec block hps (by omega)

/-- Settles O32: the steps of the command are its atomic transaction, and in between the engine is
one of the sixteen ROUNDS states, which show the same ports. -/
theorem blockTransaction : Obligations.BlockTransaction := by
  intro s dec len block first last waits rest command hp hin hlen hfirst hvalid hword hwaits hlast
    hready
  have hwf : command.wellFormed = true := wellFormed_blockCommand_of_le dec block hlen
  have haccepted := accepted_blockCommand dec len block s.KV
  have hresponse := responseTo_blockCommand dec len block s.KV s.K
  refine ⟨fun h8 hnil => ?_, fun h8 hkv hnil => ?_, fun h8 hkv h16 => ⟨?_, fun n h1 hn => ?_⟩⟩
  · subst hnil
    exact run_rejected hwf hp hin hfirst hvalid hword hlast hready
      (haccepted.trans (by simp [h8])) (hresponse.trans (if_pos h8))
  · subst hnil
    exact run_rejected hwf hp hin hfirst hvalid hword hlast hready
      (haccepted.trans (by simp [hkv])) (hresponse.trans (by rw [if_neg (not_not.mpr h8), if_pos hkv]))
  · subst h8
    have hown : ownSteps command s.KV = 16 := if_pos (haccepted.trans hkv)
    have hrun := run_transaction hwf hp hin (h16.trans hown.symm) hfirst hvalid hword hwaits hlast
      hready
    rw [transactionSteps, hown] at hrun
    exact hrun.trans (congrArg _ (transact_blockCommand dec block hp hkv))
  · subst h8
    obtain ⟨n, rfl⟩ := Nat.exists_eq_add_of_le' h1
    have hps : ∀ p ∈ (waits ++ last :: rest).take 16, p.rst = false := by
      rwa [← h16, List.take_left]
    exact ⟨_, run_presented_blockCommand hp hkv hin hfirst hvalid hword hps (by omega),
      hkv ▸ outputs_roundsAt dec block _ n⟩

/-! ### A whole session -/

/-- The responses of commands that load no key all come from the store before them (R65). -/
theorem transactAll_delivered {is : List Instr} (h : ∀ i ∈ is, i.loadsKey = false) (s : State) :
    (transactAll is s).delivered = s.delivered ++ is.map (responseTo · s.KV s.K) := by
  induction is generalizing s with
  | nil => exact (List.append_nil _).symm
  | cons i is ih =>
    obtain ⟨hkv, hK⟩ := transact_keeps_store (h i List.mem_cons_self) s
    rw [transactAll_cons, ih fun j hj => h j (List.mem_cons_of_mem i hj), transact_delivered, hkv,
      hK, List.map_cons, List.append_assoc, List.singleton_append]

/-- A key load and any commands after it that load no key are answered with that key's schedule. -/
theorem transactAll_ldkey_delivered (key : Block) {is : List Instr}
    (h : ∀ i ∈ is, i.loadsKey = false) (s : State) :
    (transactAll (.ldkey 8 key :: is) s).delivered =
      s.delivered ++ ⟨statusOK, 0⟩ :: is.map (responseTo · true (keySchedule key)) := by
  obtain ⟨hkv, hK⟩ := transact_ldkey_store key s
  rw [transactAll_cons, transactAll_delivered h, transact_delivered, hkv, hK, List.append_assoc,
    List.singleton_append]
  rfl

/-- Settles O55: the session is three atomic transactions of eighteen steps each, and the last of
them undoes the one before (R197). -/
theorem roundTripThroughThePorts : Obligations.RoundTripThroughThePorts := by
  intro s key block hp is hin
  have his : is = .ldkey 8 key :: [.enc 8 block, .dec 8 (encrypt key block)] := rfl
  have hwf : ∀ i ∈ is, i.wellFormed = true := by simp [is, Instr.wellFormed, lenFits]
  have hload : ∀ i ∈ [Instr.enc 8 block, .dec 8 (encrypt key block)], i.loadsKey = false := by
    simp [Instr.loadsKey]
  have hdec : responseTo (.dec 8 (encrypt key block)) true (keySchedule key) = ⟨statusOK, block⟩ :=
    congrArg (Response.mk statusOK) (roundTrip.1 key block).1
  have hsteps : commandSteps s.KV is = 54 := rfl
  refine ⟨_, hsteps ▸ run_commands is [] hwf hp (hin.trans (List.append_nil _).symm), ?_⟩
  rw [his, transactAll_ldkey_delivered key hload, List.map_cons, List.map_singleton, hdec]
  rfl

end Sys2Proof.Machine
end

section
/-!
PROOFS. Exceptions (60_exceptions.md R210 to R220): what a rejected command is answered, which
rejection is reported when several causes apply, and that a rejected command leaves no trace.
-/

namespace Sys2Proof

open Machine

/-! ### Commands by their opcode -/

theorem exists_rsvd_of_opcode {i : Instr} (h : i.opcode = 0b00) :
    ∃ len data, i = .rsvd len data := by
  cases i with
  | rsvd len data => exact ⟨len, data, rfl⟩
  | ldkey | enc | dec => simp [Instr.opcode] at h

theorem exists_ldkey_of_opcode {i : Instr} (h : i.opcode = 0b01) :
    ∃ len key, i = .ldkey len key := by
  cases i with
  | ldkey len key => exact ⟨len, key, rfl⟩
  | rsvd | enc | dec => simp [Instr.opcode] at h

theorem exists_blockCommand_of_opcode {i : Instr} (h : i.opcode = 0b10 ∨ i.opcode = 0b11) :
    ∃ dec len block, i = blockCommand dec len block := by
  cases i with
  | enc len block => exact ⟨false, len, block, rfl⟩
  | dec len block => exact ⟨true, len, block, rfl⟩
  | rsvd | ldkey => simp [Instr.opcode] at h

@[simp] theorem len_blockCommand (dec : Bool) (len : Nat) (block : Block) :
    (blockCommand dec len block).len = len := by cases dec <;> rfl

end Sys2Proof

namespace Sys2Proof.Machine

variable {s : State}

/-! ### The response to a rejected command -/

/-- The codes of the four rejections are none of them OK (R86). -/
theorem Rejection.code_ne_zero (x : Rejection) : x.code ≠ 0 := by cases x <;> decide

/-- A block command is rejected for its length or for want of a key. -/
theorem responseTo_blockCommand_rejected {dec : Bool} {len : Nat} {block : Block} {kv : Bool}
    (h : accepted (blockCommand dec len block) kv = false) (ks : RoundKeySet) :
    ∃ x : Rejection, responseTo (blockCommand dec len block) kv ks = ⟨x.code, 0⟩ := by
  rw [responseTo_blockCommand]
  by_cases hlen : len = 8
  · have hkv : kv = false := by simpa [accepted_blockCommand, hlen] using h
    exact ⟨.noKey, by simp [hlen, hkv]⟩
  · exact ⟨.invalidBlockSize, if_pos hlen⟩

/-- A rejected command is answered with the code of a rejection and zero data (R216). -/
theorem exists_rejection_of_rejected {i : Instr} {kv : Bool} (h : accepted i kv = false)
    (ks : RoundKeySet) : ∃ x : Rejection, responseTo i kv ks = ⟨x.code, 0⟩ := by
  cases i with
  | rsvd len data => exact ⟨.invalidOperationFlag, rfl⟩
  | ldkey len key =>
    have hlen : len ≠ 8 := by simpa [accepted] using h
    exact ⟨.invalidKeySize, if_pos hlen⟩
  | enc len block => exact responseTo_blockCommand_rejected (dec := false) h ks
  | dec len block => exact responseTo_blockCommand_rejected (dec := true) h ks

/-! ### The engine after a rejected command -/

/-- The response registers and what was delivered before are nothing a host can still come to see of
an idle engine (R34). -/
theorem alike_of_idle_response (hp : s.PHASE = .idle) (r : Response) (rest : List PortIn)
    (delivered : List Response) :
    Alike
      { s with RSP_STATUS := r.status, RSP_DATA := r.data, inputs := rest, delivered := delivered }
      { s with inputs := rest } :=
  .of_idle hp hp rfl rfl fun _ => rfl

/-- Settles O39: the two steps are those of `run_rejected`, and the engine they leave is alike to the
one to which nothing was presented, so the two run alike for ever. -/
theorem rejectedCommandLeavesNoTrace : Obligations.RejectedCommandLeavesNoTrace := by
  intro s i first last rest hp hin hwf hfirst hvalid hword hlast hready hrej
  obtain ⟨x, hx⟩ := exists_rejection_of_rejected hrej s.K
  have hrun := run_rejected hwf hp hin hfirst hvalid hword hlast hready hrej hx
  rw [hx]
  intro r
  refine ⟨x.code_ne_zero, rfl, hrun, fun n => ?_⟩
  obtain ⟨u, v, later, hu, hv, halike, hdu, hdv⟩ :=
    (alike_of_idle_response hp r rest (s.delivered ++ [r])).run n
  exact ⟨u, v, later, (run_add hrun).trans hu, hv, halike.outputs, hdv, hdu⟩

/-! ### Which rejection -/

/-- Settles O37: Accept of RSVD is fault entry. -/
theorem reservedOpcodeRejected : Obligations.ReservedOpcodeRejected :=
  fun len data _ hp => exec_idle (.rsvd len data) hp

/-- Settles O38: the opcode says which of RSVD, LDKEY and the block commands it is, and each of them
has its own cases of Accept. -/
theorem rejectionPriority : Obligations.RejectionPriority := by
  intro i s hp rejectedWith
  refine ⟨fun hop => ?_, fun hop hlen => ?_, fun hop hlen => ?_, fun hop hlen hkv => ?_,
    fun hop hlen => ?_, fun hop hlen hkv => ?_⟩
  · obtain ⟨len, data, rfl⟩ := exists_rsvd_of_opcode hop
    exact reservedOpcodeRejected len data s hp
  · obtain ⟨len, key, rfl⟩ := exists_ldkey_of_opcode hop
    exact (ldkeyAccept len key s hp).1 hlen
  · obtain ⟨dec, len, block, rfl⟩ := exists_blockCommand_of_opcode hop
    rw [len_blockCommand] at hlen
    obtain ⟨-, hsize, -⟩ := blockAccept dec len block s hp
    exact hsize hlen
  · obtain ⟨dec, len, block, rfl⟩ := exists_blockCommand_of_opcode hop
    rw [len_blockCommand] at hlen
    obtain ⟨-, -, hnoKey, -⟩ := blockAccept dec len block s hp
    exact hnoKey hlen hkv
  · obtain ⟨len, key, rfl⟩ := exists_ldkey_of_opcode hop
    exact ⟨_, (ldkeyAccept len key s hp).2 hlen, rfl⟩
  · obtain ⟨dec, len, block, rfl⟩ := exists_blockCommand_of_opcode hop
    rw [len_blockCommand] at hlen
    obtain ⟨-, -, -, htaken⟩ := blockAccept dec len block s hp
    exact ⟨_, htaken hlen hkv, rfl⟩

/-! ### The return from a rejection -/

/-- Settles O41: the step is Deliver. -/
theorem deliverReturnsToIdle : Obligations.DeliverReturnsToIdle :=
  fun _ hp hrst hready => step_deliver hp hrst hready

end Sys2Proof.Machine
end

section
/-!
PROOFS. Reset and liveness (70_reset_and_hazards.md R241, R260): what the reset event leaves, and that
a command in flight ends in a response once the engine's own steps it has left are done.
-/

namespace Sys2Proof.Machine

variable {s t : State}

/-! ### Reset -/

/-- Settles O10: the step is the reset event. -/
theorem resetEventFromAnyState : Obligations.ResetEventFromAnyState :=
  fun _ hrst => ⟨_, step_reset hrst, rfl, rfl, rfl, rfl, rfl⟩

/-! ### A command in flight -/

/-- A RoundStep uses up no input value of its own. -/
theorem roundStep_inputs (h : roundStep s = .next t) : t.inputs = s.inputs := by
  obtain hr | hr := roundStep_cases h
  · rw [roundStep_lt hr] at h; cases h; rfl
  · rw [roundStep_last hr] at h; cases h; rfl

/-- A step of a ROUNDS engine is a RoundStep, which counts (R29, R193). -/
theorem step_rounds_counts (hp : s.PHASE = .rounds) (hrst : s.now.rst = false)
    (hrnd : s.RND.toNat ≤ 15) :
    ∃ t, step s = .next t ∧ t.PHASE = (if s.RND.toNat = 15 then .resp else .rounds) ∧
      t.RND.toNat = s.RND.toNat + 1 ∧ t.inputs = s.inputs.tail := by
  obtain ⟨t, ht⟩ := roundStep_answers (s := s.tick) hrnd
  obtain ⟨-, hcount, hphase, -⟩ := roundStep_counts ht
  simp only [State.tick_PHASE, State.tick_RND, hp] at hphase hcount
  exact ⟨t, (step_rounds hp hrst).trans ht, hphase, hcount, roundStep_inputs ht⟩

/-- Both phases of a command in flight count alike (R28, R29). -/
theorem step_inFlight_counts (hp : s.PHASE = .keygen ∨ s.PHASE = .rounds)
    (hrst : s.now.rst = false) (hrnd : s.RND.toNat ≤ 15) :
    ∃ t, step s = .next t ∧ t.PHASE = (if s.RND.toNat = 15 then .resp else s.PHASE) ∧
      t.RND.toNat = s.RND.toNat + 1 ∧ t.inputs = s.inputs.tail := by
  obtain hp | hp := hp
  · rw [hp]; exact step_keygen_counts hp hrst hrnd
  · rw [hp]; exact step_rounds_counts hp hrst hrnd

/-- No reset in the first `m + 1` input values: none in the `m` after the first. -/
theorem rst_of_mem_tail_take {ps : List PortIn} {m : Nat}
    (h : ∀ p ∈ ps.take (m + 1), p.rst = false) : ∀ p ∈ ps.tail.take m, p.rst = false :=
  fun p hm => h p (List.mem_of_mem_tail (by rwa [List.tail_take_eq_take_tail]))

/-- An engine with `n + 1` of its own steps left does them all and shows its response (R260). -/
theorem run_inFlight {n : Nat} (hp : s.PHASE = .keygen ∨ s.PHASE = .rounds)
    (hleft : s.RND.toNat + (n + 1) = 16) (h : ∀ p ∈ s.inputs.take (n + 1), p.rst = false) :
    ∃ t, run (n + 1) s = .next t ∧ t.PHASE = .resp ∧ t.RND = 16 := by
  induction n generalizing s with
  | zero =>
    obtain ⟨t, hstep, hphase, hcount, -⟩ :=
      step_inFlight_counts hp (headD_drop_rst (k := 0) h (by omega)) (by omega)
    refine ⟨t, by rw [run_succ_of_step hstep, run_zero], ?_, ?_⟩
    · rw [hphase, if_pos (by omega)]
    · exact BitVec.eq_of_toNat_eq (hcount.trans hleft)
  | succ n ih =>
    obtain ⟨u, hstep, hphase, hcount, hinputs⟩ :=
      step_inFlight_counts hp (headD_drop_rst (k := 0) h (by omega)) (by omega)
    rw [if_neg (by omega)] at hphase
    rw [run_succ_of_step hstep]
    exact ih (hphase ▸ hp) (by omega) (hinputs ▸ rst_of_mem_tail_take h)

/-- Settles O50, by induction on the engine's own steps that are left. -/
theorem commandInFlightEnds : Obligations.CommandInFlightEnds := by
  intro s hp hrnd hrst
  have hleft : 16 - s.RND.toNat = 15 - s.RND.toNat + 1 := by omega
  rw [hleft] at hrst ⊢
  exact run_inFlight hp (by omega) hrst

end Sys2Proof.Machine
end
